-- ==== Sys2Proof/Word.lean ====
section
/-! DEFINITION. The word types of FTB-BX (00_scope.md R7, R10; 20_memory.md R89). -/

namespace Sys2Proof

/-- A 32-bit word: a register, a word of PBUF, a command word (00_scope.md R7, R10; 30_encoding.md R100). -/
abbrev Word := BitVec 32

/-- A byte lane of a word (20_memory.md R75). -/
abbrev Byte := BitVec 8

/-- The bus's word offset of a register: byte offset div 4 (20_memory.md R71, R89). -/
abbrev RegAddr := BitVec 6

end Sys2Proof
end

