-- ==== Sys2Proof/Syntax.lean ====
section
/-! DEFINITION. The commands of FTB-BX, one constructor per row of the opcode map (30_encoding.md R106). -/

namespace Sys2Proof

/-- A decoded command (30_encoding.md R106, R107). A field operand is the unsigned number its bits spell,
zero-extended (R103 to R105, R111), so it is a natural number; `Instr.WellFormed` says which numbers the field holds. -/
inductive Instr where
  /-- NOP, 40_control.md R140. -/
  | nop
  /-- CONFIG, 40_control.md R141. -/
  | config
  /-- LOAD, 41_normalizer.md R165. -/
  | load
  /-- WRITE_RAW ADDR, 41_normalizer.md R166. -/
  | writeRaw (addr : Nat)
  /-- READ_RAW ADDR, 41_normalizer.md R167. -/
  | readRaw (addr : Nat)
  /-- BSWAP, 41_normalizer.md R164. -/
  | bswap
  /-- EXTRACT_SPAN W, 42_extractor.md R186. -/
  | extractSpan (w : Nat)
  /-- GLYPH_START G, 42_extractor.md R187. -/
  | glyphStart (g : Nat)
  /-- EXTRACT_ROW G, 42_extractor.md R188. -/
  | extractRow (g : Nat)
  /-- CLEAR_ERR, 40_control.md R142. -/
  | clearErr
deriving DecidableEq, Repr

end Sys2Proof
end

