-- ==== Sys2Proof/WellFormed.lean ====
section
/-! DEFINITION. Which commands have an encoding: each field fits its bits (30_encoding.md R103 to R105). -/

namespace Sys2Proof

/-- Every field of the command fits the bits its format gives it: ADDR 24 bits (30_encoding.md R103), W 6 bits (R104),
G 8 bits (R105). A field that fits but is out of range for the command is well formed and raises when executed (R109). -/
def Instr.wellFormed : Instr → Bool
  | .nop => true
  | .config => true
  | .load => true
  | .writeRaw addr => decide (addr < 16777216)
  | .readRaw addr => decide (addr < 16777216)
  | .bswap => true
  | .extractSpan w => decide (w < 64)
  | .glyphStart g => decide (g < 256)
  | .extractRow g => decide (g < 256)
  | .clearErr => true

/-- The same check as a proposition. -/
abbrev Instr.WellFormed (i : Instr) : Prop := i.wellFormed = true

end Sys2Proof
end

