-- ==== Sys2Proof/Decode.lean ====
section
/-! DEFINITION. The command word: its fields, the opcode map, the decoder and the encoder (30_encoding.md R100 to R110). -/

namespace Sys2Proof

/-- `v[hi:lo]` as an unsigned value (00_scope.md R14). -/
def bitsOf (v : Word) (hi lo : Nat) : Nat := v.toNat / 2 ^ lo % 2 ^ (hi - lo + 1)

/-- Why a word is ILLEGAL (30_encoding.md R108). -/
inductive IllegalWord where
  /-- OPC is 0xA to 0xF. -/
  | reservedOpcode (opc : Nat)
  /-- OPC is legal and a reserved bit of its format is 1. -/
  | reservedBits (opc : Nat)
deriving DecidableEq, Repr

/-- What the decoder answers: a command or ILLEGAL with its reason (30_encoding.md R107). -/
inductive Decoded where
  | command (i : Instr)
  | illegal (why : IllegalWord)
deriving DecidableEq, Repr

/-- The command `i` if the format's reserved field reads 0, ILLEGAL otherwise (30_encoding.md R102 to R105, R108). -/
def acceptIf (reserved opc : Nat) (i : Instr) : Decoded :=
  if reserved = 0 then .command i else .illegal (.reservedBits opc)

/-- The decoder, total on all 2^32 words (30_encoding.md R107). -/
def decode (c : Word) : Decoded :=
  match bitsOf c 31 28 with
  | 0 => acceptIf (bitsOf c 27 0) 0 .nop
  | 1 => acceptIf (bitsOf c 27 0) 1 .config
  | 2 => acceptIf (bitsOf c 27 0) 2 .load
  | 3 => acceptIf (bitsOf c 27 24) 3 (.writeRaw (bitsOf c 23 0))
  | 4 => acceptIf (bitsOf c 27 24) 4 (.readRaw (bitsOf c 23 0))
  | 5 => acceptIf (bitsOf c 27 0) 5 .bswap
  | 6 => acceptIf (bitsOf c 27 6) 6 (.extractSpan (bitsOf c 5 0))
  | 7 => acceptIf (bitsOf c 27 8) 7 (.glyphStart (bitsOf c 7 0))
  | 8 => acceptIf (bitsOf c 27 8) 8 (.extractRow (bitsOf c 7 0))
  | 9 => acceptIf (bitsOf c 27 0) 9 .clearErr
  | opc => .illegal (.reservedOpcode opc)

/-- The ten rows of the opcode map (30_encoding.md R106). -/
inductive Opcode where
  | nop | config | load | writeRaw | readRaw | bswap | extractSpan | glyphStart | extractRow | clearErr
deriving DecidableEq, Repr

/-- The row of a command. -/
def Instr.opcode : Instr → Opcode
  | .nop => .nop
  | .config => .config
  | .load => .load
  | .writeRaw _ => .writeRaw
  | .readRaw _ => .readRaw
  | .bswap => .bswap
  | .extractSpan _ => .extractSpan
  | .glyphStart _ => .glyphStart
  | .extractRow _ => .extractRow
  | .clearErr => .clearErr

/-- The row's `match` column: the command word with every field 0 (30_encoding.md R106). -/
def Opcode.matchWord : Opcode → Word
  | .nop => 0x00000000
  | .config => 0x10000000
  | .load => 0x20000000
  | .writeRaw => 0x30000000
  | .readRaw => 0x40000000
  | .bswap => 0x50000000
  | .extractSpan => 0x60000000
  | .glyphStart => 0x70000000
  | .extractRow => 0x80000000
  | .clearErr => 0x90000000

/-- The row's `mask` column: a 1 at every bit that must equal `match` (30_encoding.md R106). -/
def Opcode.mask : Opcode → Word
  | .nop => 0xFFFFFFFF
  | .config => 0xFFFFFFFF
  | .load => 0xFFFFFFFF
  | .writeRaw => 0xFF000000
  | .readRaw => 0xFF000000
  | .bswap => 0xFFFFFFFF
  | .extractSpan => 0xFFFFFFC0
  | .glyphStart => 0xFFFFFF00
  | .extractRow => 0xFFFFFF00
  | .clearErr => 0xFFFFFFFF

/-- A command word from its opcode number and the value of its low bits (30_encoding.md R101). -/
def commandWord (opc field : Nat) : Word := BitVec.ofNat 32 (opc * 2 ^ 28 + field)

/-- The encoder: the word of a well-formed command (30_encoding.md R102 to R106). -/
def encode : Instr → Word
  | .nop => commandWord 0 0
  | .config => commandWord 1 0
  | .load => commandWord 2 0
  | .writeRaw addr => commandWord 3 addr
  | .readRaw addr => commandWord 4 addr
  | .bswap => commandWord 5 0
  | .extractSpan w => commandWord 6 w
  | .glyphStart g => commandWord 7 g
  | .extractRow g => commandWord 8 g
  | .clearErr => commandWord 9 0

/-- What the decoder reads from an instruction whose table bits are `w`: bit 0 of `w` is bit 0 of the command word,
every bit above the first `nbits` is 0. A command is one 32-bit word written to CMD (30_encoding.md R100). -/
def decodeTableWord (nbits w : Nat) : Option Instr :=
  match decode (BitVec.ofNat 32 (w % 2 ^ nbits)) with
  | .command i => some i
  | .illegal _ => none

end Sys2Proof
end

