-- ==== Sys2Proof/Config.lean ====
section
/-! DEFINITION. What an implementation of FTB-BX fixes, and the values its spec leaves open. -/

namespace Sys2Proof

/-- The parameters of one block. `pbufWords` is PBUF_WORDS, the number of words of PBUF, left open between
2 and 2^24 (00_scope.md R9; 93_implementation_defined.md U12). -/
structure Config where
  pbufWords : Nat
  two_le : 2 ≤ pbufWords := by decide
  le_max : pbufWords ≤ 16777216 := by decide
deriving DecidableEq, Repr

/-- The reference value of PBUF_WORDS, the one the test vectors use (00_scope.md R9).
DESIGN CHOICE (log 2): `State.reset` carries it; every other statement is about every configuration. -/
def Config.reference : Config := { pbufWords := 4096 }

/-- Free value: the word PBUF holds at an index that no command has written since power-up
(93_implementation_defined.md U3: an arbitrary array, chosen once). Log 4; safe. -/
opaque Config.powerUpWord : Nat → Word

/-- Free value: whether the `n`-th LOAD or WRITE_RAW that a reset cut short wrote its word
(93_implementation_defined.md U9). Log 5; safe. -/
opaque Config.cutCommits : Nat → Bool

/-- Free value: what the `n`-th 32-bit register holds before the first reset (70_reset_and_hazards.md R234). Log 6; safe. -/
opaque Config.powerUpRegister : Nat → Word

/-- Free value: what STATUS.ERR holds before the first reset (70_reset_and_hazards.md R234). Log 6; safe. -/
opaque Config.powerUpErr : BitVec 4

/-- Free value: what STATUS.CONFIGURED holds before the first reset (70_reset_and_hazards.md R234). Log 6; safe. -/
opaque Config.powerUpConfigured : Bool

end Sys2Proof
end

