-- ==== Sys2Proof/Machine/State.lean ====
section
/-! DEFINITION. The state of FTB-BX as plain data, its reset value, and the reasons a step can stop
(10_state.md R30 to R54; 70_reset_and_hazards.md R230). -/

namespace Sys2Proof.Machine

/-- The error codes of STATUS.ERR (60_exceptions.md R200). -/
inductive ErrorCode where
  | illegal | notConfigured | geomAlign | widthRange | capacity
  | notLoaded | loadOverrun | glyphRange | rowRange | bounds
deriving DecidableEq, Repr

/-- The sixteen defined registers (10_state.md R31). -/
inductive Reg where
  | id | capacity | status | errCmd | arg0 | arg1 | cmd | result
  | imgWidth | imgHeight | charWidth | charHeight
  | bytesPerLine | wordsPerLine | totalWords | loadCount
deriving DecidableEq, Repr

/-- A bus transaction: a read or a write of one register by its word offset (20_memory.md R91, R92). -/
inductive Transaction where
  | read (addr : RegAddr)
  | write (addr : RegAddr) (wdata : Word)
deriving DecidableEq, Repr

/-- What the host does next (20_memory.md R93, R94): a transaction, a reset between transactions
(70_reset_and_hazards.md R230), or a reset while a transaction is in progress (R232). -/
inductive BusEvent where
  | transfer (t : Transaction)
  | reset
  | resetDuring (t : Transaction)
deriving DecidableEq, Repr

/-- What the block answered in the last step (20_memory.md R90, R91): no ack, the ack of a write, or the ack of a read with
rdata. Outside a read's ack cycle rdata has no meaning, so no other reply carries one. -/
inductive Reply where
  | idle
  | writeAck
  | readAck (rdata : Word)
deriving DecidableEq, Repr

/-- PBUF: the words commands have written since power-up, as (word index, word) pairs, indices strictly rising
(20_memory.md R70; 93_implementation_defined.md U3; log 3). -/
abbrev Memory := List (Nat × Word)

/-- The state: the tuple of 10_state.md R30, the configuration (R30: not state; carried here, log 2) and four fields of the
model's own. -/
structure State where
  /-- The block's parameters (00_scope.md R9). No step changes it. -/
  cfg : Config
  /-- ARG0, 10_state.md R39. -/
  arg0 : Word
  /-- ARG1, 10_state.md R40. -/
  arg1 : Word
  /-- RESULT, 10_state.md R42. -/
  result : Word
  /-- STATUS.ERR, 10_state.md R35. -/
  err : BitVec 4
  /-- ERR_CMD, 10_state.md R38. -/
  errCmd : Word
  /-- STATUS.CONFIGURED, 10_state.md R36. -/
  configured : Bool
  /-- IMG_WIDTH, 10_state.md R43. -/
  imgWidth : Word
  /-- IMG_HEIGHT, 10_state.md R44. -/
  imgHeight : Word
  /-- LOAD_COUNT, 10_state.md R50. -/
  loadCount : Word
  /-- PBUF, 10_state.md R51. -/
  pbuf : Memory
  /-- The model's own: a reset has been applied since power-up (70_reset_and_hazards.md R234; log 6). -/
  resetDone : Bool
  /-- The model's own: what the host does next, first entry first (20_memory.md R93; log 1). -/
  inbox : List BusEvent
  /-- The model's own: ack and rdata of the last step (20_memory.md R90, R91; log 7). -/
  reply : Reply
  /-- The model's own: how many transactions a reset has cut (93_implementation_defined.md U9; log 5). -/
  cutCount : Nat
deriving DecidableEq, Repr

/-- Why a step can stop with a fault. No state that reset can reach raises one (10_state.md R52; log 9). -/
inductive Fault where
  /-- A PBUF access at an index that does not exist (20_memory.md R70). Raised by `memRead` and `memWrite`, under LOAD and
  EXTRACT_ROW in states whose geometry does not fit PBUF. Safe: the spec says nothing of such a state. -/
  | pbufIndexOutOfRange
  /-- A span of width 0 or above 32, outside 42_extractor.md R180's precondition. Raised by `span`, under EXTRACT_ROW in
  states whose CHAR_WIDTH is not 1 to 32. Safe: the spec says nothing of such a state. -/
  | spanWidthOutOfRange
deriving DecidableEq, Repr

/-- Why a step can be refused. -/
inductive Refusal where
  /-- An instruction without a meaning in this model, by its mnemonic. Raised by `exec`'s refused arms; there is none. Safe. -/
  | notModelled (mnemonic : String)
  /-- A transaction before the first reset after power-up, which the host must not make (70_reset_and_hazards.md R234;
  93_implementation_defined.md U10). Raised by `perform` and `Signals.start`. Safe. -/
  | transactionBeforeReset
  /-- The host changed the transaction's signals before its ack (20_memory.md R90, R94; 93_implementation_defined.md U7).
  Raised by `Signals.edge` only; a transaction-level run cannot express it. Safe. -/
  | busProtocol
deriving DecidableEq, Repr

/-- The machine right after its first reset, every register at the value of 70_reset_and_hazards.md R230, no word of PBUF
written. DESIGN CHOICE: the reference PBUF_WORDS (log 2), an empty inbox (log 1), and 0 cut transactions (log 5). -/
def State.reset : State where
  cfg := Config.reference
  arg0 := 0
  arg1 := 0
  result := 0
  err := 0
  errCmd := 0
  configured := false
  imgWidth := 0
  imgHeight := 0
  loadCount := 0
  pbuf := []
  resetDone := true
  inbox := []
  reply := .idle
  cutCount := 0

end Sys2Proof.Machine
end

