-- ==== Sys2Proof/Machine/Geometry.lean ====
section
/-! DEFINITION. The derived geometry (10_state.md R45 to R49) and the addresses computed from it
(41_normalizer.md R162; 42_extractor.md R184, R185), on unbounded naturals (00_scope.md R12). -/

namespace Sys2Proof.Machine

/-- "charWidth = width / 64" (10_state.md R45). -/
abbrev charWidthOf (width : Nat) : Nat := width / 64

/-- "charHeight = height / 2" (10_state.md R46). -/
abbrev charHeightOf (height : Nat) : Nat := height / 2

/-- "bytesPerLine = charWidth * 64 / 8" (10_state.md R47). -/
abbrev bytesPerLineOf (charWidth : Nat) : Nat := charWidth * 64 / 8

/-- "wordsPerLine = bytesPerLine / 4" (10_state.md R48). -/
abbrev wordsPerLineOf (bytesPerLine : Nat) : Nat := bytesPerLine / 4

/-- CHAR_WIDTH (10_state.md R45). -/
def State.charWidth (s : State) : Nat := charWidthOf s.imgWidth.toNat

/-- CHAR_HEIGHT (10_state.md R46). -/
def State.charHeight (s : State) : Nat := charHeightOf s.imgHeight.toNat

/-- BYTES_PER_LINE (10_state.md R47). -/
def State.bytesPerLine (s : State) : Nat := bytesPerLineOf s.charWidth

/-- WORDS_PER_LINE, WPL in the spec's pseudocode (10_state.md R48). -/
def State.wordsPerLine (s : State) : Nat := wordsPerLineOf s.bytesPerLine

/-- TOTAL_WORDS (10_state.md R49). -/
def State.totalWords (s : State) : Nat := s.wordsPerLine * s.imgHeight.toNat

/-- The PBUF index of stream word `k` (41_normalizer.md R162; 90_conflicts.md C1). -/
def dest (s : State) (k : Nat) : Nat :=
  (s.imgHeight.toNat - 1 - k / s.wordsPerLine) * s.wordsPerLine + k % s.wordsPerLine

/-- The start bit of glyph `g` (42_extractor.md R184). -/
def startBit (s : State) (g : Nat) : Nat :=
  g % 64 * s.charWidth + (if g < 64 then 0 else s.charHeight * s.wordsPerLine * 32)

/-- The bit position of scanline `r` of glyph `g` (42_extractor.md R185). -/
def rowBit (s : State) (g r : Nat) : Nat := startBit s g + r * s.wordsPerLine * 32

end Sys2Proof.Machine
end

