-- ==== Sys2Proof/Machine/Flags.lean ====
section
/-! DEFINITION. The STATUS register and the error codes it shows (10_state.md R34 to R37; 60_exceptions.md R200). -/

namespace Sys2Proof.Machine

/-- The 4-bit code of an error (60_exceptions.md R200). -/
def ErrorCode.code : ErrorCode → BitVec 4
  | .illegal => 0x1
  | .notConfigured => 0x2
  | .geomAlign => 0x3
  | .widthRange => 0x4
  | .capacity => 0x5
  | .notLoaded => 0x6
  | .loadOverrun => 0x7
  | .glyphRange => 0x8
  | .rowRange => 0x9
  | .bounds => 0xA

/-- The block is in the error state: STATUS.ERR is not 0 (00_scope.md R18). -/
def State.inError (s : State) : Bool := s.err != 0

/-- STATUS.LOADED: configured, and every word of the image loaded (10_state.md R37). -/
def State.loaded (s : State) : Bool := s.configured && decide (s.loadCount.toNat = s.totalWords)

/-- The STATUS register: ERR in bits [3:0], CONFIGURED in bit 8, LOADED in bit 9, every other bit 0 (10_state.md R34). -/
def State.status (s : State) : Word :=
  BitVec.ofNat 32 (s.err.toNat + s.configured.toNat * 2 ^ 8 + s.loaded.toNat * 2 ^ 9)

end Sys2Proof.Machine
end

