-- ==== Sys2Proof/Machine/Operands.lean ====
section
/-! DEFINITION. Where a command's operands come from (30_encoding.md R111). The field operands ADDR, W and G are the
constructor's argument, which the decoder read from the command word (`decode`). The register operands stand here: ARG0 and
ARG1 as they stand when the CMD write arrives, read as unsigned numbers (00_scope.md R12) or as the word itself. -/

namespace Sys2Proof.Machine

/-- ARG0 as an unsigned number: the width of CONFIG, the bit position of EXTRACT_SPAN, the scanline of EXTRACT_ROW. -/
abbrev State.arg0Number (s : State) : Nat := s.arg0.toNat

/-- ARG1 as an unsigned number: the height of CONFIG. -/
abbrev State.arg1Number (s : State) : Nat := s.arg1.toNat

/-- ARG0 as a word: the stream word of LOAD, the data word of WRITE_RAW and BSWAP. -/
abbrev State.dataWord (s : State) : Word := s.arg0

/-- `trunc_32`: a natural number reduced to a register's width (00_scope.md R12). -/
def trunc32 (v : Nat) : Word := BitVec.ofNat 32 v

end Sys2Proof.Machine
end

