-- ==== Sys2Proof/Machine/Ops.lean ====
section
/-! DEFINITION. The shared operations: PBUF, the lane swap, the span read, raising an error and returning from one, reset
(20_memory.md; 41_normalizer.md R160; 42_extractor.md R180; 60_exceptions.md R201, R204; 70_reset_and_hazards.md R230). -/

namespace Sys2Proof.Machine

/-! ### PBUF as plain data -/

/-- The word a command has written at index `a` since power-up, if any. -/
def Memory.lookup : Memory → Nat → Option Word
  | [], _ => none
  | (b, w) :: m, a => if a = b then some w else Memory.lookup m a

/-- The memory with `v` at index `a`, its indices still strictly rising. -/
def Memory.store : Memory → Nat → Word → Memory
  | [], a, v => [(a, v)]
  | (b, w) :: m, a, v =>
    if a < b then (a, v) :: (b, w) :: m
    else if a = b then (a, v) :: m
    else (b, w) :: Memory.store m a v

/-- The indices rise strictly, start at `lo` or above and stay below `hi`. -/
def Memory.risesWithin (lo hi : Nat) : Memory → Bool
  | [] => true
  | (a, _) :: m => decide (lo ≤ a) && decide (a < hi) && Memory.risesWithin (a + 1) hi m

/-- The canonical form: indices strictly rising, every one an index of a PBUF of `n` words (20_memory.md R70). No entry can
equal what an unlisted index holds, because an unlisted index holds no word a command wrote (log 3). -/
def Memory.wf (n : Nat) (m : Memory) : Bool := Memory.risesWithin 0 n m

/-- `PBUF[a]`: the word last written there, or the free power-up word (20_memory.md R70; 93_implementation_defined.md U3). -/
def State.word (s : State) (a : Nat) : Word := (Memory.lookup s.pbuf a).getD (Config.powerUpWord a)

/-- A command has written PBUF index `a` since power-up. -/
def State.written (s : State) (a : Nat) : Bool := (Memory.lookup s.pbuf a).isSome

/-- Stream bit `p` of the flat bitstream: bit `31 - (p mod 32)` of `PBUF[p div 32]` (20_memory.md R72). -/
def State.streamBit (s : State) (p : Nat) : Bool := (s.word (p / 32)).getLsbD (31 - p % 32)

/-- `MemRead(a, 1)` (00_scope.md R15). An index that does not exist faults; every caller checks first (log 9). -/
def memRead (s : State) (a : Nat) : Except Fault Word :=
  if a < s.cfg.pbufWords then .ok (s.word a) else .error .pbufIndexOutOfRange

/-- `PBUF[a] <- v` (00_scope.md R15). -/
def storeWord (s : State) (a : Nat) (v : Word) : State := { s with pbuf := Memory.store s.pbuf a v }

/-- `MemWrite(a, 1, v)` (00_scope.md R15). An index that does not exist faults; every caller checks first (log 9). -/
def memWrite (s : State) (a : Nat) (v : Word) : Except Fault State :=
  if a < s.cfg.pbufWords then .ok (storeWord s a v) else .error .pbufIndexOutOfRange

/-! ### Byte lanes -/

/-- Byte `i` of a word: bits `[8i + 7 : 8i]` (41_normalizer.md R160). -/
def byteLane (v : Word) (i : Nat) : Byte := v.extractLsb' (8 * i) 8

/-- The lane swap, byte 0 with byte 3 and byte 1 with byte 2 (41_normalizer.md R160). -/
def bswap32 (v : Word) : Word :=
  (byteLane v 0).setWidth 32 <<< 24 ||| (byteLane v 1).setWidth 32 <<< 16
    ||| (byteLane v 2).setWidth 32 <<< 8 ||| (byteLane v 3).setWidth 32

/-! ### Span extraction -/

/-- The mask of the `n` low bits, `2^n - 1`, on unbounded naturals (00_scope.md R13; 90_conflicts.md C3). -/
def lowMask (n : Nat) : Nat := 1 <<< n - 1

/-- A span that lies in one word `x` (42_extractor.md R180, non-crossing case). -/
def spanInWord (x : Word) (off w : Nat) : Nat := (x.toNat >>> (32 - w - off)) &&& lowMask w

/-- A span that crosses from word `x` into the next word `y` (42_extractor.md R180, boundary-crossing case). -/
def spanAcross (x y : Word) (off w : Nat) : Nat :=
  let hb := 32 - off
  let lb := w - hb
  let first := x.toNat &&& lowMask hb
  let second := (y.toNat &&& (lowMask lb <<< (32 - lb))) >>> (32 - lb)
  (first <<< lb) ||| second

/-- `Span(p, W)` (42_extractor.md R180): reads word `p div 32`, and the next one only in the crossing case (R182). A width
outside 1 to 32 is outside the rule's precondition and faults; every caller checks first (log 9). -/
def span (s : State) (p w : Nat) : Except Fault Nat :=
  if w = 0 ∨ 32 < w then .error .spanWidthOutOfRange
  else
    match memRead s (p / 32) with
    | .error f => .error f
    | .ok x =>
      if p % 32 + w ≤ 32 then .ok (spanInWord x (p % 32) w)
      else
        match memRead s (p / 32 + 1) with
        | .error f => .error f
        | .ok y => .ok (spanAcross x y (p % 32) w)

/-! ### Results, errors, reset -/

/-- The outcome of an operation that can only fail by a fault. -/
def finish (r : Except Fault State) : Host.Outcome State Fault Refusal :=
  match r with
  | .ok s => .next s
  | .error f => .fault f

/-- `RESULT <- v` for a value the datapath computed (10_state.md R42). -/
def setResult (s : State) (v : Nat) : State := { s with result := trunc32 v }

/-- A host write to ARG0 (10_state.md R39; 20_memory.md R92). -/
def setArg0 (s : State) (v : Word) : State := { s with arg0 := v }

/-- A host write to ARG1 (10_state.md R40; 20_memory.md R92). -/
def setArg1 (s : State) (v : Word) : State := { s with arg1 := v }

/-- The geometry of an accepted CONFIG, taken from ARG0 and ARG1; the normalizer restarts (40_control.md R141). -/
def acceptGeometry (s : State) : State :=
  { s with imgWidth := s.arg0, imgHeight := s.arg1, configured := true, loadCount := 0 }

/-- The normalizer's position after the stream word `k` is stored: `LOAD_COUNT <- k + 1` (41_normalizer.md R165). -/
def advanceLoad (k : Nat) (s : State) : State := { s with loadCount := trunc32 (k + 1) }

/-- The ack of this step and its rdata (20_memory.md R90, R91). -/
def setReply (s : State) (r : Reply) : State := { s with reply := r }

/-- The host's remaining actions (20_memory.md R93). -/
def setInbox (s : State) (q : List BusEvent) : State := { s with inbox := q }

/-- `raise E` during the command with word `c`: ERR and ERR_CMD are written, nothing else (60_exceptions.md R201). -/
def raise (e : ErrorCode) (c : Word) (s : State) : State := { s with err := e.code, errCmd := c }

/-- The raise of a decoded command: the word recorded is the command's own, its encoding (60_exceptions.md R201; log 10). -/
def raiseIn (i : Instr) (e : ErrorCode) (s : State) : Host.Outcome State Fault Refusal :=
  .next (raise e (encode i) s)

/-- Return from an error: ERR becomes 0 and nothing else changes (60_exceptions.md R204). -/
def clearError (s : State) : State := { s with err := 0 }

/-- Reset: every register takes its reset value, PBUF keeps its contents (70_reset_and_hazards.md R230); no ack is given
while rst_n = 0 (R231), and transactions may follow (R234). -/
def applyReset (s : State) : State :=
  { s with
    arg0 := 0
    arg1 := 0
    result := 0
    err := 0
    errCmd := 0
    configured := false
    imgWidth := 0
    imgHeight := 0
    loadCount := 0
    resetDone := true
    reply := .idle }

/-- The block after power is applied and before its first reset: every register unspecified, PBUF unspecified
(70_reset_and_hazards.md R234; 93_implementation_defined.md U3, U10; log 6). DESIGN CHOICE (log 19): no ack there. -/
def powerUp (cfg : Config) (inbox : List BusEvent) : State where
  cfg := cfg
  arg0 := Config.powerUpRegister 0
  arg1 := Config.powerUpRegister 1
  result := Config.powerUpRegister 2
  err := Config.powerUpErr
  errCmd := Config.powerUpRegister 3
  configured := Config.powerUpConfigured
  imgWidth := Config.powerUpRegister 4
  imgHeight := Config.powerUpRegister 5
  loadCount := Config.powerUpRegister 6
  pbuf := []
  resetDone := false
  inbox := inbox
  reply := .idle
  cutCount := 0

end Sys2Proof.Machine
end

