-- ==== Sys2Proof/Machine/Control.lean ====
section
/-! DEFINITION. The control and geometry commands NOP, CONFIG and CLEAR_ERR (40_control.md). -/

namespace Sys2Proof.Machine

/-- NOP (40_control.md R140). -/
def execNop (s : State) : Host.Outcome State Fault Refusal := .next s

/-- CONFIG: validate ARG0 x ARG1 and make it the current geometry, restarting the normalizer (40_control.md R141). -/
def execConfig (s : State) : Host.Outcome State Fault Refusal :=
  let cw := charWidthOf s.arg0Number
  let wpl := wordsPerLineOf (bytesPerLineOf cw)
  if s.arg0Number % 64 ≠ 0 then raiseIn .config .geomAlign s
  else if cw = 0 ∨ 32 < cw then raiseIn .config .widthRange s
  else if s.cfg.pbufWords < wpl * s.arg1Number then raiseIn .config .capacity s
  else .next (acceptGeometry s)

/-- CLEAR_ERR (40_control.md R142; 60_exceptions.md R204). -/
def execClearErr (s : State) : Host.Outcome State Fault Refusal := .next (clearError s)

end Sys2Proof.Machine
end

