-- ==== Sys2Proof/Machine/Extractor.lean ====
section
/-! DEFINITION. The extractor commands EXTRACT_SPAN, GLYPH_START and EXTRACT_ROW (42_extractor.md). -/

namespace Sys2Proof.Machine

/-- EXTRACT_SPAN: `w` bits at any bit position of PBUF (42_extractor.md R186). -/
def execExtractSpan (w : Nat) (s : State) : Host.Outcome State Fault Refusal :=
  let p := s.arg0Number
  if w = 0 ∨ 32 < w then raiseIn (.extractSpan w) .widthRange s
  else if 32 * s.cfg.pbufWords < p + w then raiseIn (.extractSpan w) .bounds s
  else finish ((span s p w).map (setResult s))

/-- GLYPH_START: the start bit of glyph `g` (42_extractor.md R187). -/
def execGlyphStart (g : Nat) (s : State) : Host.Outcome State Fault Refusal :=
  if s.configured = false then raiseIn (.glyphStart g) .notConfigured s
  else if 128 ≤ g then raiseIn (.glyphStart g) .glyphRange s
  else .next (setResult s (startBit s g))

/-- EXTRACT_ROW: scanline ARG0 of glyph `g` of the loaded image (42_extractor.md R188). -/
def execExtractRow (g : Nat) (s : State) : Host.Outcome State Fault Refusal :=
  let r := s.arg0Number
  if s.configured = false then raiseIn (.extractRow g) .notConfigured s
  else if s.loadCount.toNat ≠ s.totalWords then raiseIn (.extractRow g) .notLoaded s
  else if 128 ≤ g then raiseIn (.extractRow g) .glyphRange s
  else if s.charHeight ≤ r then raiseIn (.extractRow g) .rowRange s
  else if 32 * s.totalWords < rowBit s g r + s.charWidth then raiseIn (.extractRow g) .bounds s
  else finish ((span s (rowBit s g r) s.charWidth).map (setResult s))

end Sys2Proof.Machine
end

