-- ==== Sys2Proof/Machine/Normalizer.lean ====
section
/-! DEFINITION. The normalizer commands BSWAP, LOAD, WRITE_RAW and READ_RAW (41_normalizer.md). -/

namespace Sys2Proof.Machine

/-- BSWAP (41_normalizer.md R164). -/
def execBswap (s : State) : Host.Outcome State Fault Refusal :=
  .next (setResult s (bswap32 s.dataWord).toNat)

/-- LOAD: accept the next stream word, byte-swap it, store it at its logical position (41_normalizer.md R165). -/
def execLoad (s : State) : Host.Outcome State Fault Refusal :=
  let k := s.loadCount.toNat
  if s.configured = false then raiseIn .load .notConfigured s
  else if s.totalWords ≤ k then raiseIn .load .loadOverrun s
  else finish ((memWrite s (dest s k) (bswap32 s.dataWord)).map (advanceLoad k))

/-- WRITE_RAW (41_normalizer.md R166). -/
def execWriteRaw (addr : Nat) (s : State) : Host.Outcome State Fault Refusal :=
  if s.cfg.pbufWords ≤ addr then raiseIn (.writeRaw addr) .bounds s
  else finish (memWrite s addr s.dataWord)

/-- READ_RAW (41_normalizer.md R167). -/
def execReadRaw (addr : Nat) (s : State) : Host.Outcome State Fault Refusal :=
  if s.cfg.pbufWords ≤ addr then raiseIn (.readRaw addr) .bounds s
  else finish ((memRead s addr).map fun v => setResult s v.toNat)

end Sys2Proof.Machine
end

