-- ==== Sys2Proof/Machine/Dispatch.lean ====
section
/-! DEFINITION. exec: the meaning of each command, one arm per constructor (30_encoding.md R113). -/

namespace Sys2Proof.Machine

def exec (i : Instr) (s : State) : Host.Outcome State Fault Refusal :=
  match i with
  | .nop => Sys2Proof.Machine.execNop s
  | .config => Sys2Proof.Machine.execConfig s
  | .load => Sys2Proof.Machine.execLoad s
  | .writeRaw addr => Sys2Proof.Machine.execWriteRaw addr s
  | .readRaw addr => Sys2Proof.Machine.execReadRaw addr s
  | .bswap => Sys2Proof.Machine.execBswap s
  | .extractSpan w => Sys2Proof.Machine.execExtractSpan w s
  | .glyphStart g => Sys2Proof.Machine.execGlyphStart g s
  | .extractRow g => Sys2Proof.Machine.execExtractRow g s
  | .clearErr => Sys2Proof.Machine.execClearErr s

end Sys2Proof.Machine
end

