-- ==== Sys2Proof/Machine/Command.lean ====
section
/-! DEFINITION. The command step: the sticky gate, the decoder, the meaning (30_encoding.md R113; 60_exceptions.md R202). -/

namespace Sys2Proof.Machine

/-- The gate lets word `v` through: no error is recorded, or `v` is CLEAR_ERR's word (60_exceptions.md R202). -/
def admitted (v : Word) (s : State) : Bool := !s.inError || v == 0x90000000

/-- `Step(v)`: a host write of `v` to CMD (30_encoding.md R113). A rejected command has no effect (60_exceptions.md R202), an
illegal word raises E_ILLEGAL (30_encoding.md R108), any other word runs its command. -/
def commandStep (v : Word) (s : State) : Host.Outcome State Fault Refusal :=
  if admitted v s then
    match decode v with
    | .illegal _ => .next (raise .illegal v s)
    | .command i => exec i s
  else .next s

end Sys2Proof.Machine
end

