-- ==== Sys2Proof/Machine/Bus.lean ====
section
/-! DEFINITION. The register map and the transaction-level view of the bus (10_state.md R31 to R50; 20_memory.md R80, R81,
R91 to R93; 70_reset_and_hazards.md R230 to R234). -/

namespace Sys2Proof.Machine

/-- The byte offset of a register (10_state.md R31). -/
def Reg.byteOffset : Reg → Nat
  | .id => 0x00
  | .capacity => 0x04
  | .status => 0x08
  | .errCmd => 0x0C
  | .arg0 => 0x10
  | .arg1 => 0x14
  | .cmd => 0x18
  | .result => 0x1C
  | .imgWidth => 0x20
  | .imgHeight => 0x24
  | .charWidth => 0x28
  | .charHeight => 0x2C
  | .bytesPerLine => 0x30
  | .wordsPerLine => 0x34
  | .totalWords => 0x38
  | .loadCount => 0x3C

/-- The word offset that addresses a register on the bus: byte offset div 4 (20_memory.md R71). -/
def Reg.addr (r : Reg) : RegAddr := BitVec.ofNat 6 (r.byteOffset / 4)

/-- The register at a word offset; none at the reserved offsets 0x40 to 0xFC (10_state.md R31; 20_memory.md R81). -/
def Reg.ofAddr (a : RegAddr) : Option Reg :=
  match a.toNat with
  | 0 => some .id
  | 1 => some .capacity
  | 2 => some .status
  | 3 => some .errCmd
  | 4 => some .arg0
  | 5 => some .arg1
  | 6 => some .cmd
  | 7 => some .result
  | 8 => some .imgWidth
  | 9 => some .imgHeight
  | 10 => some .charWidth
  | 11 => some .charHeight
  | 12 => some .bytesPerLine
  | 13 => some .wordsPerLine
  | 14 => some .totalWords
  | 15 => some .loadCount
  | _ => none

/-- What a read of a register gives (10_state.md R32 to R50). CMD is write-only and reads 0 (R41).
DEDUCED (log 16): the derived registers are reduced by trunc_32, which changes nothing in a reachable state. -/
def State.readReg (s : State) : Reg → Word
  | .id => 0x46544231
  | .capacity => trunc32 s.cfg.pbufWords
  | .status => s.status
  | .errCmd => s.errCmd
  | .arg0 => s.arg0
  | .arg1 => s.arg1
  | .cmd => 0
  | .result => s.result
  | .imgWidth => s.imgWidth
  | .imgHeight => s.imgHeight
  | .charWidth => trunc32 s.charWidth
  | .charHeight => trunc32 s.charHeight
  | .bytesPerLine => trunc32 s.bytesPerLine
  | .wordsPerLine => trunc32 s.wordsPerLine
  | .totalWords => trunc32 s.totalWords
  | .loadCount => s.loadCount

/-- rdata of a read transaction; a reserved offset reads 0 (20_memory.md R81, R91). -/
def busRead (s : State) (a : RegAddr) : Word :=
  match Reg.ofAddr a with
  | some r => s.readReg r
  | none => 0

/-- The effect of a write transaction: ARG0 and ARG1 are stored, CMD executes the command, every other offset ignores the
write (20_memory.md R80, R81, R92). -/
def busWrite (s : State) (a : RegAddr) (v : Word) : Host.Outcome State Fault Refusal :=
  match Reg.ofAddr a with
  | some .arg0 => .next (setArg0 s v)
  | some .arg1 => .next (setArg1 s v)
  | some .cmd => commandStep v s
  | some .id | some .capacity | some .status | some .errCmd | some .result
  | some .imgWidth | some .imgHeight | some .charWidth | some .charHeight
  | some .bytesPerLine | some .wordsPerLine | some .totalWords | some .loadCount
  | none => .next s

/-- One completed transaction with its ack (20_memory.md R91, R92). A read changes nothing but the reply (R80); a write is
acknowledged whatever its command does (30_encoding.md R114). -/
def transfer (t : Transaction) (s : State) : Host.Outcome State Fault Refusal :=
  match t with
  | .read a => .next (setReply s (.readAck (busRead s a)))
  | .write a v => busWrite (setReply s .writeAck) a v

/-- A reset that cuts the transaction `t` of state `s`, which would have left `after`: every register is at its reset value,
and PBUF is as before or as the command would have left it, a free choice (70_reset_and_hazards.md R232;
93_implementation_defined.md U9; log 5). -/
def cutByReset (s after : State) : State :=
  applyReset { s with
    pbuf := if Config.cutCommits s.cutCount then after.pbuf else s.pbuf
    cutCount := s.cutCount + 1 }

/-- One event of the host at transaction level (20_memory.md R93). A transaction before the first reset is refused
(70_reset_and_hazards.md R234; 93_implementation_defined.md U10). -/
def perform (e : BusEvent) (s : State) : Host.Outcome State Fault Refusal :=
  match e with
  | .reset => .next (applyReset s)
  | .transfer t => if s.resetDone then transfer t s else .refused .transactionBeforeReset
  | .resetDuring t =>
    if s.resetDone then
      match transfer t s with
      | .next after => .next (cutByReset s after)
      | .fault _ | .refused _ => .next (cutByReset s s)
    else .refused .transactionBeforeReset

/-- With nothing to do the block holds its state and gives no ack (60_exceptions.md R213; 20_memory.md R90). -/
def idleStep (s : State) : State := setReply s .idle

/-- The next event of the inbox, or an idle step when there is none (log 1). -/
def runNext (s : State) : Host.Outcome State Fault Refusal :=
  match s.inbox with
  | [] => .next (idleStep s)
  | e :: rest => perform e (setInbox s rest)

/-- The host's next action becomes a write of the command word `v` to CMD. -/
def pushCommand (v : Word) (s : State) : State :=
  setInbox s (.transfer (.write Reg.cmd.addr v) :: s.inbox)

end Sys2Proof.Machine
end

