-- ==== Sys2Proof/Machine/Step.lean ====
section
/-! DEFINITION. One step of the machine: the host's next event (20_memory.md R93; log 1). -/

namespace Sys2Proof.Machine

/-- One step: the next event of `inbox` takes effect; with an empty inbox the block idles. -/
def step (s : State) : Host.Outcome State Fault Refusal := runNext s

/-- `s` with the command whose bits are `w` as the host's next write to CMD, where `step` takes its next command from
(log 1): the bits above the first `nbits` are 0. -/
def State.withFetchWord (s : State) (nbits w : Nat) : State :=
  pushCommand (BitVec.ofNat 32 (w % 2 ^ nbits)) s

end Sys2Proof.Machine
end

