-- ==== Sys2Proof/Machine/Script.lean ====
section
/-! DEFINITION. The host script: its lines, its pseudo-instructions and their expansions, its text, and the conversion sequence
(30_encoding.md R115, R116; 70_reset_and_hazards.md R235). It is what a host sends; the block never sees a line. -/

namespace Sys2Proof.Machine

/-- One line of a host script (30_encoding.md R115, R116). -/
inductive ScriptLine where
  | wr (r : Reg) (v : Word)
  | rd (r : Reg)
  | command (i : Instr)
  | configI (w h : Word)
  | loadI (v : Word)
  | writeRawI (a : Nat) (v : Word)
  | bswapI (v : Word)
  | extractSpanI (p : Word) (w : Nat)
  | extractRowI (g : Nat) (r : Word)
  | check
deriving DecidableEq, Repr

/-- The write transaction of a register (30_encoding.md R115). -/
def writeEvent (r : Reg) (v : Word) : BusEvent := .transfer (.write r.addr v)

/-- The read transaction of a register (30_encoding.md R115). -/
def readEvent (r : Reg) : BusEvent := .transfer (.read r.addr)

/-- The transaction of a mnemonic line: its encoding written to CMD (30_encoding.md R115). -/
def commandEvent (i : Instr) : BusEvent := writeEvent .cmd (encode i)

/-- The transactions of a line, in order (30_encoding.md R115, R116). -/
def ScriptLine.expand : ScriptLine → List BusEvent
  | .wr r v => [writeEvent r v]
  | .rd r => [readEvent r]
  | .command i => [commandEvent i]
  | .configI w h => [writeEvent .arg0 w, writeEvent .arg1 h, commandEvent .config]
  | .loadI v => [writeEvent .arg0 v, commandEvent .load]
  | .writeRawI a v => [writeEvent .arg0 v, commandEvent (.writeRaw a)]
  | .bswapI v => [writeEvent .arg0 v, commandEvent .bswap]
  | .extractSpanI p w => [writeEvent .arg0 p, commandEvent (.extractSpan w)]
  | .extractRowI g r => [writeEvent .arg0 r, commandEvent (.extractRow g)]
  | .check => [readEvent .status]

/-! ### The text of a line (log 15) -/

/-- The text before a comment. -/
def uncommented (cs : List Char) : List Char := cs.takeWhile (· ≠ ';')

/-- The words of a line, separated by blanks and commas; `cur` is the word being read, last character first. -/
def scriptWords : List Char → List Char → List (List Char)
  | [], cur => if cur = [] then [] else [cur.reverse]
  | c :: cs, cur =>
    if c = ' ' ∨ c = '\t' ∨ c = ',' then
      if cur = [] then scriptWords cs [] else cur.reverse :: scriptWords cs []
    else scriptWords cs (c :: cur)

/-- The value of a digit in base 16. -/
def digitValue (c : Char) : Option Nat :=
  let n := c.toNat
  if 48 ≤ n ∧ n ≤ 57 then some (n - 48)
  else if 65 ≤ n ∧ n ≤ 70 then some (n - 55)
  else if 97 ≤ n ∧ n ≤ 102 then some (n - 87)
  else none

/-- The value of a run of digits of a base, after `acc`. -/
def digitsValue (base : Nat) : List Char → Nat → Option Nat
  | [], acc => some acc
  | c :: cs, acc =>
    match digitValue c with
    | some d => if d < base then digitsValue base cs (acc * base + d) else none
    | none => none

/-- A number, decimal or `0x` hexadecimal, `_` a digit separator in the latter (30_encoding.md R115; 00_scope.md R14). -/
def scriptNumber : List Char → Option Nat
  | [] => none
  | '0' :: 'x' :: ds =>
    match ds.filter (· ≠ '_') with
    | [] => none
    | hs => digitsValue 16 hs 0
  | ds => digitsValue 10 ds 0

/-- A number that fits a register. -/
def scriptValue (cs : List Char) : Option Word :=
  match scriptNumber cs with
  | some n => if n < 4294967296 then some (trunc32 n) else none
  | none => none

/-- The name of a register in a script (10_state.md R31). -/
def Reg.scriptName : Reg → List Char
  | .id => ['I', 'D']
  | .capacity => ['C', 'A', 'P', 'A', 'C', 'I', 'T', 'Y']
  | .status => ['S', 'T', 'A', 'T', 'U', 'S']
  | .errCmd => ['E', 'R', 'R', '_', 'C', 'M', 'D']
  | .arg0 => ['A', 'R', 'G', '0']
  | .arg1 => ['A', 'R', 'G', '1']
  | .cmd => ['C', 'M', 'D']
  | .result => ['R', 'E', 'S', 'U', 'L', 'T']
  | .imgWidth => ['I', 'M', 'G', '_', 'W', 'I', 'D', 'T', 'H']
  | .imgHeight => ['I', 'M', 'G', '_', 'H', 'E', 'I', 'G', 'H', 'T']
  | .charWidth => ['C', 'H', 'A', 'R', '_', 'W', 'I', 'D', 'T', 'H']
  | .charHeight => ['C', 'H', 'A', 'R', '_', 'H', 'E', 'I', 'G', 'H', 'T']
  | .bytesPerLine => ['B', 'Y', 'T', 'E', 'S', '_', 'P', 'E', 'R', '_', 'L', 'I', 'N', 'E']
  | .wordsPerLine => ['W', 'O', 'R', 'D', 'S', '_', 'P', 'E', 'R', '_', 'L', 'I', 'N', 'E']
  | .totalWords => ['T', 'O', 'T', 'A', 'L', '_', 'W', 'O', 'R', 'D', 'S']
  | .loadCount => ['L', 'O', 'A', 'D', '_', 'C', 'O', 'U', 'N', 'T']

/-- Every register, in the order of the register map (10_state.md R31). -/
def Reg.all : List Reg :=
  [.id, .capacity, .status, .errCmd, .arg0, .arg1, .cmd, .result, .imgWidth, .imgHeight, .charWidth, .charHeight,
    .bytesPerLine, .wordsPerLine, .totalWords, .loadCount]

/-- The register a name stands for. -/
def scriptReg (cs : List Char) : Option Reg := Reg.all.find? (fun r => decide (r.scriptName = cs))

/-- A line that is one word. -/
def parseOneWord (m : List Char) : Option ScriptLine :=
  if m = ['N', 'O', 'P'] then some (.command .nop)
  else if m = ['C', 'O', 'N', 'F', 'I', 'G'] then some (.command .config)
  else if m = ['L', 'O', 'A', 'D'] then some (.command .load)
  else if m = ['B', 'S', 'W', 'A', 'P'] then some (.command .bswap)
  else if m = ['C', 'L', 'E', 'A', 'R', '_', 'E', 'R', 'R'] then some (.command .clearErr)
  else if m = ['C', 'H', 'E', 'C', 'K'] then some .check
  else none

/-- A command line with its field, if the field fits its bits (30_encoding.md R103 to R105). -/
def commandLine (i : Instr) : Option ScriptLine := if i.wellFormed then some (.command i) else none

/-- A line that is a mnemonic and one number. -/
def parseTwoWords (m : List Char) (n : Nat) : Option ScriptLine :=
  if m = ['W', 'R', 'I', 'T', 'E', '_', 'R', 'A', 'W'] then commandLine (.writeRaw n)
  else if m = ['R', 'E', 'A', 'D', '_', 'R', 'A', 'W'] then commandLine (.readRaw n)
  else if m = ['E', 'X', 'T', 'R', 'A', 'C', 'T', '_', 'S', 'P', 'A', 'N'] then commandLine (.extractSpan n)
  else if m = ['G', 'L', 'Y', 'P', 'H', '_', 'S', 'T', 'A', 'R', 'T'] then commandLine (.glyphStart n)
  else if m = ['E', 'X', 'T', 'R', 'A', 'C', 'T', '_', 'R', 'O', 'W'] then commandLine (.extractRow n)
  else if 4294967296 ≤ n then none
  else if m = ['L', 'O', 'A', 'D', '.', 'I'] then some (.loadI (trunc32 n))
  else if m = ['B', 'S', 'W', 'A', 'P', '.', 'I'] then some (.bswapI (trunc32 n))
  else none

/-- A line that is a mnemonic and two numbers. -/
def parseThreeWords (m : List Char) (a b : Nat) : Option ScriptLine :=
  if 4294967296 ≤ a ∨ 4294967296 ≤ b then none
  else if m = ['C', 'O', 'N', 'F', 'I', 'G', '.', 'I'] then some (.configI (trunc32 a) (trunc32 b))
  else if m = ['W', 'R', 'I', 'T', 'E', '_', 'R', 'A', 'W', '.', 'I'] then
    if a < 16777216 then some (.writeRawI a (trunc32 b)) else none
  else if m = ['E', 'X', 'T', 'R', 'A', 'C', 'T', '_', 'S', 'P', 'A', 'N', '.', 'I'] then
    if b < 64 then some (.extractSpanI (trunc32 a) b) else none
  else if m = ['E', 'X', 'T', 'R', 'A', 'C', 'T', '_', 'R', 'O', 'W', '.', 'I'] then
    if a < 256 then some (.extractRowI a (trunc32 b)) else none
  else none

/-- The words of a line that is not blank (30_encoding.md R115, R116). -/
def parseWords (ws : List (List Char)) : Option ScriptLine :=
  match ws with
  | [m] => parseOneWord m
  | [m, a] =>
    if m = ['R', 'D'] then (scriptReg a).map .rd
    else match scriptNumber a with
      | some n => parseTwoWords m n
      | none => none
  | [m, a, b] =>
    if m = ['W', 'R'] then
      match scriptReg a, scriptValue b with
      | some r, some v => some (.wr r v)
      | _, _ => none
    else
      match scriptNumber a, scriptNumber b with
      | some x, some y => parseThreeWords m x y
      | _, _ => none
  | _ => none

/-- One line of text: its transactions, none of them for a blank or comment line, or no answer where the text is no line. -/
def scriptEvents (cs : List Char) : Option (List BusEvent) :=
  match scriptWords (uncommented cs) [] with
  | [] => some []
  | ws => (parseWords ws).map ScriptLine.expand

/-! ### The conversion sequence -/

/-- The transactions that present stream words to LOAD in order (70_reset_and_hazards.md R235, step 4). -/
def loadEvents (stream : List Word) : List BusEvent := stream.flatMap fun v => (ScriptLine.loadI v).expand

/-- The transactions that extract one scanline: the row number, EXTRACT_ROW, the result
(70_reset_and_hazards.md R235, step 6). -/
def extractEvents (g r : Nat) : List BusEvent :=
  (ScriptLine.extractRowI g (trunc32 r)).expand ++ (ScriptLine.rd .result).expand

/-- What a host does to convert an image of `width` x `height` whose stream words are `stream`, in the order of
70_reset_and_hazards.md R235: reset, CONFIG, one LOAD per stream word, then every scanline of every glyph, with a read of
STATUS after CONFIG, after the loads and at the end. -/
def conversion (width height : Word) (stream : List Word) : List BusEvent :=
  [.reset] ++ (ScriptLine.configI width height).expand ++ ScriptLine.check.expand
    ++ loadEvents stream ++ ScriptLine.check.expand
    ++ (List.range 128).flatMap (fun g => (List.range (charHeightOf height.toNat)).flatMap (extractEvents g))
    ++ ScriptLine.check.expand

/-! ### The stream as the file holds it -/

/-- Byte `n` of the pixel data, by the lanes in which the host presents stream words (20_memory.md R75). -/
def streamByte (stream : List Word) (n : Nat) : Byte := byteLane (stream.getD (n / 4) 0) (n % 4)

/-- The pixel of the file's image at column `x` of logical row `y`, row 0 the top one: the file holds the rows bottom row
first, each of `bytesPerLine` bytes, and bit 7 of a byte is its leftmost pixel (20_memory.md R75, R76). -/
def filePixel (stream : List Word) (bytesPerLine height x y : Nat) : Bool :=
  (streamByte stream ((height - 1 - y) * bytesPerLine + x / 8)).getLsbD (7 - x % 8)

end Sys2Proof.Machine
end

