-- ==== Sys2Proof/Machine/Signals.lean ====
section
/-! DEFINITION. The signal-level interface of the bus: pins, clock edges, the req/ack handshake and the reset input
(20_memory.md R89 to R92; 70_reset_and_hazards.md R231, R232, R239). It stands above the transaction level: what it does to
the block is `perform` (20_memory.md R93). -/

namespace Sys2Proof.Machine

/-- The input pins as sampled at one rising edge of clk (20_memory.md R89). -/
structure Pins where
  rstN : Bool
  req : Bool
  we : Bool
  addr : RegAddr
  wdata : Word
deriving DecidableEq, Repr

/-- What the block captures when a transaction starts (20_memory.md R90); not architectural state (10_state.md R54). -/
structure Latch where
  we : Bool
  addr : RegAddr
  wdata : Word
deriving DecidableEq, Repr

/-- Where the handshake stands after an edge (20_memory.md R90). -/
inductive Phase where
  /-- No transaction is in progress and ack = 0. -/
  | idle
  /-- A transaction is in progress, ack = 0, and `wait` more edges pass before the one that starts its ack cycle. -/
  | busy (l : Latch) (wait : Nat)
  /-- The ack cycle: ack = 1. -/
  | acking
deriving DecidableEq, Repr

/-- The block with its bus interface, between two edges. -/
structure Signals where
  block : State
  phase : Phase
deriving DecidableEq, Repr

/-- The latched signals of a sample. -/
def Pins.latch (p : Pins) : Latch := { we := p.we, addr := p.addr, wdata := p.wdata }

/-- The transaction a latch stands for: we = 1 is a write (20_memory.md R89). -/
def Latch.transaction (l : Latch) : Transaction := if l.we then .write l.addr l.wdata else .read l.addr

/-- The output pin ack (20_memory.md R90). -/
def Signals.ack (c : Signals) : Bool := decide (c.phase = .acking)

/-- The output rdata: a value in the ack cycle of a read, no meaning elsewhere (20_memory.md R91). -/
def Signals.rdata (c : Signals) : Option Word :=
  match c.phase, c.block.reply with
  | .acking, .readAck v => some v
  | _, _ => none

/-- The transaction-level event that takes effect at this edge, if any: a reset while rst_n = 0, cutting the transaction in
progress if there is one (70_reset_and_hazards.md R231, R232), or the transaction whose ack cycle starts (20_memory.md R92). -/
def Signals.event (c : Signals) (p : Pins) : Option BusEvent :=
  if p.rstN then
    match c.phase with
    | .busy l 0 => some (.transfer l.transaction)
    | .busy _ (_ + 1) | .idle | .acking => none
  else
    match c.phase with
    | .busy l _ => some (.resetDuring l.transaction)
    | .idle | .acking => some .reset

/-- An edge with no transaction in progress: one starts if req = 1 (20_memory.md R90), after the first reset only
(93_implementation_defined.md U10). `extra` is the number of cycles beyond the least that it will take (R239). -/
def Signals.start (extra : Nat) (p : Pins) (c : Signals) : Host.Outcome Signals Fault Refusal :=
  if p.req then
    if c.block.resetDone then .next { c with phase := .busy p.latch extra }
    else .refused .transactionBeforeReset
  else .next { c with phase := .idle }

/-- The event `e` takes effect in the block and the handshake goes to `ph`. -/
def Signals.complete (e : BusEvent) (ph : Phase) (c : Signals) : Host.Outcome Signals Fault Refusal :=
  match perform e c.block with
  | .next b => .next { block := b, phase := ph }
  | .fault f => .fault f
  | .refused r => .refused r

/-- One rising edge of clk with the pins `p` (20_memory.md R90; 70_reset_and_hazards.md R231). `extra` is the latency choice of
a transaction that starts at this edge (93_implementation_defined.md U8; log 12). A host that does not hold req and the
latched signals until the ack cycle is refused (U7; log 14). At the edge that ends an ack cycle the pins are the next request
(DEDUCED, log 13). -/
def Signals.edge (extra : Nat) (p : Pins) (c : Signals) : Host.Outcome Signals Fault Refusal :=
  if p.rstN then
    match c.phase with
    | .idle | .acking => Signals.start extra p c
    | .busy l wait =>
      if p.req && decide (p.latch = l) then
        match wait with
        | 0 => Signals.complete (.transfer l.transaction) .acking c
        | n + 1 => .next { c with phase := .busy l n }
      else .refused .busProtocol
  else
    match c.phase with
    | .busy l _ => Signals.complete (.resetDuring l.transaction) .idle c
    | .idle | .acking => Signals.complete .reset .idle c

/-- A run of edges, each with its latency choice and its pins. -/
def Signals.run : List (Nat × Pins) → Signals → Host.Outcome Signals Fault Refusal
  | [], c => .next c
  | (extra, p) :: rest, c =>
    match Signals.edge extra p c with
    | .next c' => Signals.run rest c'
    | .fault f => .fault f
    | .refused r => .refused r

/-- The transaction-level events of a run of edges, in completion order (20_memory.md R93). -/
def Signals.events : List (Nat × Pins) → Signals → List BusEvent
  | [], _ => []
  | (extra, p) :: rest, c =>
    match Signals.edge extra p c with
    | .next c' => (Signals.event c p).toList ++ Signals.events rest c'
    | .fault _ | .refused _ => []

/-- The block before its first clock edge after power-up. DESIGN CHOICE (log 19): the interface is idle with ack = 0. The spec
leaves the handshake open there: R230 and R234 speak of the state elements of 10_state.md R30 only, and R231 gives ack = 0
only while rst_n = 0. -/
def Signals.powerUp (cfg : Config) : Signals := { block := Machine.powerUp cfg [], phase := .idle }

end Sys2Proof.Machine
end

