-- ==== Sys2Proof/Safety.lean ====
section
/-! DEFINITION. What a sound state of FTB-BX is (10_state.md R52) and what a run must not do. -/

namespace Sys2Proof.Machine

/-- PBUF is in canonical form: its indices rise strictly and exist (20_memory.md R70; log 3). -/
abbrev State.memoryWf (s : State) : Prop := Memory.wf s.cfg.pbufWords s.pbuf = true

/-- The invariant of 10_state.md R52, clauses (a) to (d) in order. -/
abbrev State.geometryWf (s : State) : Prop :=
  (s.configured = false → s.imgWidth = 0 ∧ s.imgHeight = 0 ∧ s.loadCount = 0) ∧
  (s.configured = true →
    s.imgWidth.toNat % 64 = 0 ∧ 1 ≤ s.charWidth ∧ s.charWidth ≤ 32 ∧
    2 ≤ s.wordsPerLine ∧ s.wordsPerLine ≤ 64 ∧ s.totalWords ≤ s.cfg.pbufWords) ∧
  s.loadCount.toNat ≤ s.totalWords ∧
  s.err.toNat ≤ 0xA

/-- The destination of every stream word accepted since the last CONFIG has been written since power-up, whatever it holds
now: a later WRITE_RAW may have overwritten it (41_normalizer.md R168; 42_extractor.md R189). -/
abbrev State.loadedWritten (s : State) : Prop := ∀ k < s.loadCount.toNat, s.written (dest s k) = true

/-- A sound state: PBUF canonical and, once the first reset has been applied, the register invariant of 10_state.md R52
(before it every register is unspecified, 70_reset_and_hazards.md R234). -/
abbrev State.Sound (s : State) : Prop := s.memoryWf ∧ (s.resetDone = true → s.geometryWf)

/-- The outcome is a stop of the machine with a fault. -/
def faults (o : Host.Outcome State Fault Refusal) : Bool :=
  match o with
  | .fault _ => true
  | .next _ | .refused _ => false

end Sys2Proof.Machine
end

