-- ==== Sys2Proof/Certificates/Slice0/Obligations.lean ====
section
/-! DEFINITION. The statements for the provers, from the numbered rules of spec/. `setInbox s rest` is `s` with the event
taken off the host's queue (log 1), and `{ s with … }` says the whole frame: every field not named is unchanged. The fields
`inbox`, `reply`, `resetDone` and `cutCount` are the model's own (logs 1, 7, 6, 5). -/

open Sys2Proof Sys2Proof.Machine

/-! ### Encoding (30_encoding.md) -/

/-- R101 to R107: every well-formed command is what its own word decodes to. -/
def Obligations.DecodeOfEncode : Prop :=
  ∀ i : Instr, i.WellFormed → decode (encode i) = .command i

/-- R107: a word that decodes to a command is that command's only word, and its fields fit. -/
def Obligations.EncodeOfDecode : Prop :=
  ∀ (c : Word) (i : Instr), decode c = .command i → i.WellFormed ∧ encode i = c

/-- R107: a word decodes to a command exactly when it matches the mask and match of its row, with ADDR, W and G the low bits;
every other word is ILLEGAL. -/
def Obligations.DecodesByMaskAndMatch : Prop :=
  ∀ c : Word,
    (∀ i : Instr, decode c = .command i ↔
      c &&& i.opcode.mask = i.opcode.matchWord ∧
      match i with
      | .writeRaw a => a = c.toNat % 2 ^ 24
      | .readRaw a => a = c.toNat % 2 ^ 24
      | .extractSpan w => w = c.toNat % 2 ^ 6
      | .glyphStart g => g = c.toNat % 2 ^ 8
      | .extractRow g => g = c.toNat % 2 ^ 8
      | .nop | .config | .load | .bswap | .clearErr => True) ∧
    ((∃ why, decode c = .illegal why) ↔ ∀ op : Opcode, c &&& op.mask ≠ op.matchWord)

/-- R108: which words are ILLEGAL, and that executing one raises E_ILLEGAL with no other effect. -/
def Obligations.IllegalWords : Prop :=
  ∀ c : Word,
    ((∃ why, decode c = .illegal why) ↔
      10 ≤ c.toNat / 2 ^ 28 ∨
      (c.toNat / 2 ^ 28 ∈ [0, 1, 2, 5, 9] ∧ c.toNat % 2 ^ 28 ≠ 0) ∨
      (c.toNat / 2 ^ 28 ∈ [3, 4] ∧ c.toNat / 2 ^ 24 % 2 ^ 4 ≠ 0) ∨
      (c.toNat / 2 ^ 28 = 6 ∧ c.toNat / 2 ^ 6 % 2 ^ 22 ≠ 0) ∨
      (c.toNat / 2 ^ 28 ∈ [7, 8] ∧ c.toNat / 2 ^ 8 % 2 ^ 20 ≠ 0)) ∧
    ∀ s : State, s.err = 0 → (∃ why, decode c = .illegal why) →
      commandStep c s = .next { s with err := 0x1, errCmd := c }

/-- R106: the words of the opcode map, written out, decode to their rows. -/
def Obligations.OpcodeMapWordsDecode : Prop :=
  decode 0x00000000 = .command .nop ∧ decode 0x10000000 = .command .config ∧
  decode 0x20000000 = .command .load ∧ decode 0x30FFFFFF = .command (.writeRaw 16777215) ∧
  decode 0x40001000 = .command (.readRaw 4096) ∧ decode 0x50000000 = .command .bswap ∧
  decode 0x60000020 = .command (.extractSpan 32) ∧ decode 0x7000004A = .command (.glyphStart 74) ∧
  decode 0x8000007F = .command (.extractRow 127) ∧ decode 0x90000000 = .command .clearErr

/-! ### The command step (30_encoding.md R113; 60_exceptions.md) -/

/-- R113: when the host's next event writes a word to CMD and the gate admits it, the step is exec of the command the word
decodes to, after the event is taken off the queue and the write is acknowledged. -/
def Obligations.StepRunsTheDecodedCommand : Prop :=
  ∀ (s : State) (v : Word) (i : Instr) (rest : List BusEvent),
    s.resetDone = true → s.inbox = .transfer (.write Reg.cmd.addr v) :: rest →
    (s.err = 0 ∨ v = 0x90000000) → decode v = .command i →
    step s = exec i { s with inbox := rest, reply := .writeAck }

/-- The word `withFetchWord` places is the one the very next step runs. The model's choice (log 1): a command comes from the
head of the inbox. -/
def Obligations.StepRunsTheFetchWord : Prop :=
  ∀ (s : State) (i : Instr), s.resetDone = true → s.err = 0 → i.WellFormed →
    step (s.withFetchWord 32 (encode i).toNat) = exec i { s with reply := .writeAck }

/-- R202: while an error is recorded every command but CLEAR_ERR's word is rejected with no effect; CLEAR_ERR runs, and
register reads and writes to ARG0 and ARG1 are not affected. -/
def Obligations.StickyErrorGate : Prop :=
  ∀ (s : State) (rest : List BusEvent), s.resetDone = true → s.err ≠ 0 →
    (∀ v, v ≠ 0x90000000 → s.inbox = .transfer (.write Reg.cmd.addr v) :: rest →
      step s = .next { s with inbox := rest, reply := .writeAck }) ∧
    (s.inbox = .transfer (.write Reg.cmd.addr 0x90000000) :: rest →
      step s = .next { s with inbox := rest, reply := .writeAck, err := 0 }) ∧
    (∀ v, s.inbox = .transfer (.write Reg.arg0.addr v) :: rest →
      step s = .next { s with inbox := rest, reply := .writeAck, arg0 := v }) ∧
    (∀ v, s.inbox = .transfer (.write Reg.arg1.addr v) :: rest →
      step s = .next { s with inbox := rest, reply := .writeAck, arg1 := v }) ∧
    (∀ a, s.inbox = .transfer (.read a) :: rest →
      step s = .next { s with inbox := rest, reply := .readAck (busRead s a) })

/-- R201: raising an error writes its code and the command word and nothing else; a command that records an error does just
that; while an error is recorded no command raises one. -/
def Obligations.PreciseErrors : Prop :=
  (∀ (e : ErrorCode) (v : Word) (s : State), raise e v s = { s with err := e.code, errCmd := v }) ∧
  (∀ (v : Word) (s t : State), s.err = 0 → commandStep v s = .next t → t.err ≠ 0 →
    ∃ e : ErrorCode, t = { s with err := e.code, errCmd := v }) ∧
  ∀ (v : Word) (s t : State), s.err ≠ 0 → commandStep v s = .next t →
    t = s ∨ v = 0x90000000 ∧ t = { s with err := 0 }

/-- R200: the errors each command can raise. -/
def Obligations.ErrorsOfEachCommand : Prop :=
  ∀ (i : Instr) (s t : State), s.err = 0 → exec i s = .next t → t.err ≠ 0 →
    t.err ∈ (match i with
      | .nop => []
      | .config => [0x3, 0x4, 0x5]
      | .load => [0x2, 0x7]
      | .writeRaw _ => [0xA]
      | .readRaw _ => [0xA]
      | .bswap => []
      | .extractSpan _ => [0x4, 0xA]
      | .glyphStart _ => [0x2, 0x8]
      | .extractRow _ => [0x2, 0x6, 0x8, 0x9, 0xA]
      | .clearErr => [] : List (BitVec 4))

/-- R202, R204, R230: once an error is recorded, only CLEAR_ERR's word or a reset changes STATUS.ERR. -/
def Obligations.OnlyClearErrOrResetLeavesAnError : Prop :=
  ∀ (s t : State), s.err ≠ 0 → step s = .next t → t.err ≠ s.err →
    (∃ rest, s.inbox = .reset :: rest) ∨ (∃ x rest, s.inbox = .resetDuring x :: rest) ∨
    (∃ rest, s.inbox = .transfer (.write Reg.cmd.addr 0x90000000) :: rest ∧ t.err = 0)

/-! ### The bus and the registers (10_state.md; 20_memory.md) -/

/-- R92: what a write transaction does at every word offset. -/
def Obligations.WriteTransactions : Prop :=
  ∀ (s : State) (a : RegAddr) (v : Word) (rest : List BusEvent), s.resetDone = true →
    s.inbox = .transfer (.write a v) :: rest →
    (a = 0x10 / 4 → step s = .next { s with inbox := rest, reply := .writeAck, arg0 := v }) ∧
    (a = 0x14 / 4 → step s = .next { s with inbox := rest, reply := .writeAck, arg1 := v }) ∧
    (a = 0x18 / 4 → step s = commandStep v { s with inbox := rest, reply := .writeAck }) ∧
    (a ≠ 0x10 / 4 → a ≠ 0x14 / 4 → a ≠ 0x18 / 4 →
      step s = .next { s with inbox := rest, reply := .writeAck })

/-- R91: a read answers the register's value, 0 where there is no readable register, and changes nothing else; rdata is given
only in the ack cycle of a read. -/
def Obligations.ReadTransactions : Prop :=
  ∀ (s : State) (a : RegAddr) (rest : List BusEvent), s.resetDone = true →
    s.inbox = .transfer (.read a) :: rest →
    step s = .next { s with inbox := rest, reply := .readAck (busRead s a) } ∧
    (∀ r : Reg, a = r.addr → busRead s a = s.readReg r) ∧
    (a = 0x18 / 4 → busRead s a = 0) ∧ (16 ≤ a.toNat → busRead s a = 0) ∧
    ∀ (c : Signals) (v : Word), c.rdata = some v → c.ack = true ∧ c.block.reply = .readAck v

/-- R31 to R50: what each of the sixteen registers reads, at its offset of the register map, the derived geometry in closed
form (R47, R48). -/
def Obligations.RegisterMapReads : Prop :=
  ∀ s : State,
    busRead s (0x00 / 4) = 0x46544231 ∧
    (busRead s (0x04 / 4)).toNat = s.cfg.pbufWords ∧
    busRead s (0x08 / 4) = s.status ∧
    busRead s (0x0C / 4) = s.errCmd ∧
    busRead s (0x10 / 4) = s.arg0 ∧
    busRead s (0x14 / 4) = s.arg1 ∧
    busRead s (0x18 / 4) = 0 ∧
    busRead s (0x1C / 4) = s.result ∧
    busRead s (0x20 / 4) = s.imgWidth ∧
    busRead s (0x24 / 4) = s.imgHeight ∧
    (busRead s (0x28 / 4)).toNat = s.imgWidth.toNat / 64 ∧
    (busRead s (0x2C / 4)).toNat = s.imgHeight.toNat / 2 ∧
    (busRead s (0x30 / 4)).toNat = 8 * (s.imgWidth.toNat / 64) ∧
    (busRead s (0x34 / 4)).toNat = 2 * (s.imgWidth.toNat / 64) ∧
    (s.geometryWf → (busRead s (0x38 / 4)).toNat = 2 * (s.imgWidth.toNat / 64) * s.imgHeight.toNat) ∧
    busRead s (0x3C / 4) = s.loadCount ∧
    ∀ a : RegAddr, 0x40 / 4 ≤ a.toNat → busRead s a = 0

/-- R34: the fields of STATUS, bit by bit, and that writes to it have no effect. -/
def Obligations.StatusFields : Prop :=
  ∀ s : State,
    (∀ b, b < 32 → s.status.getLsbD b =
      if b < 4 then s.err.getLsbD b
      else if b = 8 then s.configured
      else if b = 9 then s.configured && decide (s.loadCount.toNat = s.totalWords)
      else false) ∧
    ∀ v, busWrite s Reg.status.addr v = .next s

/-- R81: writes to read-only and reserved offsets have no effect, CMD and the reserved offsets read 0, and no access but a
command raises an error. -/
def Obligations.IgnoredAccesses : Prop :=
  (∀ (s : State) (r : Reg) (v : Word), r ≠ .arg0 → r ≠ .arg1 → r ≠ .cmd → busWrite s r.addr v = .next s) ∧
  (∀ s : State, busRead s Reg.cmd.addr = 0) ∧
  (∀ (s : State) (a : RegAddr) (v : Word), 16 ≤ a.toNat → busRead s a = 0 ∧ busWrite s a v = .next s) ∧
  (∀ (s t : State) (x : Transaction), (∀ v, x ≠ .write Reg.cmd.addr v) → transfer x s = .next t →
    t.err = s.err ∧ t.errCmd = s.errCmd)

/-- 60_exceptions.md R213 and 20_memory.md R90: with no event the block holds its state and gives no ack. The model's choice
(log 8): an empty inbox is an idle step. -/
def Obligations.IdleStepHoldsState : Prop :=
  ∀ s : State, s.inbox = [] → step s = .next { s with reply := .idle }

/-! ### Reset (70_reset_and_hazards.md) -/

/-- R230: after a reset every register has its reset value, PBUF is unchanged, and the derived registers follow. -/
def Obligations.ResetEvent : Prop :=
  ∀ (s : State) (rest : List BusEvent), s.inbox = .reset :: rest →
    ∃ t, step s = .next t ∧
      t = { s with
        inbox := rest, reply := .idle, resetDone := true, arg0 := 0, arg1 := 0, result := 0, err := 0, errCmd := 0,
        configured := false, imgWidth := 0, imgHeight := 0, loadCount := 0 } ∧
      (∀ a, t.word a = s.word a) ∧
      (∀ r : Reg, r ≠ .id → r ≠ .capacity → t.readReg r = 0) ∧
      t.readReg .id = 0x46544231 ∧ (t.readReg .capacity).toNat = s.cfg.pbufWords

/-- R230, R233: the state after reset reads as the spec says; that it has no word of PBUF written is the model's choice (log
4). -/
def Obligations.ResetStateReads : Prop :=
  (∀ r : Reg, r ≠ .id → r ≠ .capacity → State.reset.readReg r = 0) ∧
  State.reset.readReg .id = 0x46544231 ∧ (∀ a, State.reset.written a = false) ∧
  State.reset.inError = false ∧ State.reset.configured = false ∧ State.reset.loaded = false

/-- R232: a reset that cuts a transaction leaves every register at its reset value; PBUF is as before, or as the transaction
would have left it; only a CMD write can have changed it, and only at the word its LOAD or WRITE_RAW stores to.
The choice between the two is free (log 5). -/
def Obligations.ResetCutsTransaction : Prop :=
  ∀ (s : State) (x : Transaction) (rest : List BusEvent), s.resetDone = true → s.inbox = .resetDuring x :: rest →
    ∃ t, step s = .next t ∧
      t = { s with
        inbox := rest, reply := .idle, arg0 := 0, arg1 := 0, result := 0, err := 0, errCmd := 0, configured := false,
        imgWidth := 0, imgHeight := 0, loadCount := 0, pbuf := t.pbuf, cutCount := t.cutCount } ∧
      (t.pbuf = s.pbuf ∨ ∃ u, transfer x { s with inbox := rest } = .next u ∧ t.pbuf = u.pbuf) ∧
      ((∀ v, x ≠ .write Reg.cmd.addr v) → t.pbuf = s.pbuf) ∧
      ∀ v, x = .write Reg.cmd.addr v → ∀ b,
        (decode v = .command .load → b ≠ dest s s.loadCount.toNat) →
        (∀ addr, decode v = .command (.writeRaw addr) → b ≠ addr) → t.word b = s.word b

/-- R234 and 93_implementation_defined.md U10: a transaction before the first reset is refused. The model's choice (log 6): it
represents such a run and refuses it there. -/
def Obligations.TransactionBeforeResetRefused : Prop :=
  ∀ (s : State) (x : Transaction) (rest : List BusEvent), s.resetDone = false →
    (s.inbox = .transfer x :: rest ∨ s.inbox = .resetDuring x :: rest) →
    step s = .refused .transactionBeforeReset

/-! ### Control commands (40_control.md) -/

/-- R140: NOP changes nothing, executed or rejected; a word with OPC 0x0 and a nonzero reserved field is ILLEGAL. -/
def Obligations.NopChangesNothing : Prop :=
  ∀ s : State, exec .nop s = .next s ∧ commandStep 0x00000000 s = .next s ∧
    ∀ v : Word, v.toNat / 2 ^ 28 = 0 → v ≠ 0 → s.err = 0 →
      commandStep v s = .next { s with err := 0x1, errCmd := v }

/-- R142: CLEAR_ERR clears STATUS.ERR alone and its word is the only one that passes the gate in every state; a word with OPC
0x9 and a nonzero reserved field is ILLEGAL. -/
def Obligations.ClearErrClearsErrAlone : Prop :=
  ∀ s : State,
    exec .clearErr s = .next { s with err := 0 } ∧
    commandStep 0x90000000 s = .next { s with err := 0 } ∧
    ∀ v : Word, v ≠ 0x90000000 →
      (s.err ≠ 0 → commandStep v s = .next s) ∧
      (v.toNat / 2 ^ 28 = 9 → s.err = 0 → commandStep v s = .next { s with err := 0x1, errCmd := v })

/-- R141: CONFIG accepts a geometry and writes four registers, loaded at once exactly for height 0, or raises the first error
that applies. The four conditions exclude each other and cover every operand. -/
def Obligations.ConfigByOperands : Prop :=
  ∀ s : State,
    (s.arg0.toNat % 64 ≠ 0 → exec .config s = .next { s with err := 0x3, errCmd := 0x10000000 }) ∧
    (s.arg0.toNat % 64 = 0 → (s.arg0.toNat = 0 ∨ 2112 ≤ s.arg0.toNat) →
      exec .config s = .next { s with err := 0x4, errCmd := 0x10000000 }) ∧
    (s.arg0.toNat % 64 = 0 → 64 ≤ s.arg0.toNat → s.arg0.toNat ≤ 2048 →
      s.cfg.pbufWords < s.arg0.toNat / 32 * s.arg1.toNat →
      exec .config s = .next { s with err := 0x5, errCmd := 0x10000000 }) ∧
    (s.arg0.toNat % 64 = 0 → 64 ≤ s.arg0.toNat → s.arg0.toNat ≤ 2048 →
      s.arg0.toNat / 32 * s.arg1.toNat ≤ s.cfg.pbufWords →
      exec .config s =
        .next { s with imgWidth := s.arg0, imgHeight := s.arg1, configured := true, loadCount := 0 } ∧
      (State.loaded { s with imgWidth := s.arg0, imgHeight := s.arg1, configured := true, loadCount := 0 } = true ↔
        s.arg1 = 0))

/-- R143: the geometry laws, for every geometry. -/
def Obligations.GeometryLaws : Prop :=
  ∀ s : State,
    s.bytesPerLine = 8 * s.charWidth ∧ s.wordsPerLine = 2 * s.charWidth ∧ s.bytesPerLine % 4 = 0 ∧
    s.wordsPerLine * 32 = 64 * s.charWidth ∧ s.bytesPerLine = 4 * s.wordsPerLine

/-- R144: for an accepted width 64w and height 2h, CHAR_WIDTH = w, CHAR_HEIGHT = h, and once loaded EXTRACT_ROW succeeds for
exactly the 128 glyphs and their h scanlines, with a result below 2^w. -/
def Obligations.RoundTripGeometry : Prop :=
  ∀ (s : State) (w h : Nat), s.geometryWf → s.configured = true →
    s.imgWidth.toNat = 64 * w → s.imgHeight.toNat = 2 * h →
    s.charWidth = w ∧ s.charHeight = h ∧
    (s.loaded = true → s.err = 0 → ∀ g,
      (g < 128 ∧ s.arg0.toNat < h →
        ∃ t, exec (.extractRow g) s = .next t ∧ t.err = 0 ∧ t.result.toNat < 2 ^ w) ∧
      (¬ (g < 128 ∧ s.arg0.toNat < h) → ∃ t, exec (.extractRow g) s = .next t ∧ t.err ≠ 0))

/-! ### Normalizer commands (41_normalizer.md) -/

/-- R160: bit `j` of byte `i` of the swapped word is bit `j` of byte `3 - i` of the operand. -/
def Obligations.LaneSwapMovesBytes : Prop :=
  ∀ (v : Word) (i j : Nat), i < 4 → j < 8 → (bswap32 v).getLsbD (8 * i + j) = v.getLsbD (8 * (3 - i) + j)

/-- R161: the lane swap is an involution and a bijection, and its fixed points are the words with equal outer and equal inner
bytes. -/
def Obligations.LaneSwapInvolution : Prop :=
  (∀ v : Word, bswap32 (bswap32 v) = v) ∧ Function.Bijective bswap32 ∧
  ∀ v : Word, bswap32 v = v ↔ byteLane v 3 = byteLane v 0 ∧ byteLane v 2 = byteLane v 1

/-- R164: BSWAP writes the swapped operand to RESULT and nothing else. -/
def Obligations.BswapWritesResult : Prop :=
  ∀ s : State, exec .bswap s = .next { s with result := bswap32 s.arg0 }

/-- R163: the destination function is a bijection of the image's words, reverses the rows and keeps the order within a row. -/
def Obligations.RowReorderLaws : Prop :=
  ∀ s : State,
    Set.BijOn (dest s) (Set.Iio s.totalWords) (Set.Iio s.totalWords) ∧
    ∀ k, k < s.totalWords →
      dest s k / s.wordsPerLine = s.imgHeight.toNat - 1 - k / s.wordsPerLine ∧
      dest s k % s.wordsPerLine = k % s.wordsPerLine

/-- R165: LOAD stores the swapped stream word at its logical position and advances LOAD_COUNT, or raises the first error that
applies. -/
def Obligations.LoadByState : Prop :=
  ∀ s : State,
    (s.configured = false → exec .load s = .next { s with err := 0x2, errCmd := 0x20000000 }) ∧
    (s.configured = true → s.totalWords ≤ s.loadCount.toNat →
      exec .load s = .next { s with err := 0x7, errCmd := 0x20000000 }) ∧
    (s.configured = true → s.loadCount.toNat < s.totalWords → s.totalWords ≤ s.cfg.pbufWords →
      ∃ t, exec .load s = .next t ∧ t = { s with pbuf := t.pbuf, loadCount := t.loadCount } ∧
        t.loadCount.toNat = s.loadCount.toNat + 1 ∧
        t.loaded = decide (s.loadCount.toNat + 1 = s.totalWords) ∧
        ∀ a, t.word a =
          if a = (s.imgHeight.toNat - 1 - s.loadCount.toNat / s.wordsPerLine) * s.wordsPerLine
              + s.loadCount.toNat % s.wordsPerLine
          then bswap32 s.arg0 else s.word a)

/-- R166: WRITE_RAW stores ARG0 unswapped at ADDR, or raises E_BOUNDS. -/
def Obligations.WriteRawByAddress : Prop :=
  ∀ (s : State) (addr : Nat),
    (addr < s.cfg.pbufWords →
      ∃ t, exec (.writeRaw addr) s = .next t ∧ t = { s with pbuf := t.pbuf } ∧
        ∀ a, t.word a = if a = addr then s.arg0 else s.word a) ∧
    (s.cfg.pbufWords ≤ addr →
      exec (.writeRaw addr) s = .next { s with err := 0xA, errCmd := encode (.writeRaw addr) })

/-- R167: READ_RAW reads the word at ADDR into RESULT, or raises E_BOUNDS. -/
def Obligations.ReadRawByAddress : Prop :=
  ∀ (s : State) (addr : Nat),
    (addr < s.cfg.pbufWords → exec (.readRaw addr) s = .next { s with result := s.word addr }) ∧
    (s.cfg.pbufWords ≤ addr →
      exec (.readRaw addr) s = .next { s with err := 0xA, errCmd := encode (.readRaw addr) })

/-- 93_implementation_defined.md U3: READ_RAW of a word that no command has written since power-up completes, and gives the
word of an array chosen once. The spec leaves the value unspecified (R70, R167); that it is the free value
`Config.powerUpWord` of the index is the model's choice (log 4). -/
def Obligations.UnwrittenWordReadsAsFreeValue : Prop :=
  ∀ (s : State) (addr : Nat), addr < s.cfg.pbufWords → s.written addr = false →
    exec (.readRaw addr) s = .next { s with result := Config.powerUpWord addr }

/-- R238: a word WRITE_RAW stored is read by the very next READ_RAW, and no other word has changed. -/
def Obligations.ReadRawAfterWriteRaw : Prop :=
  ∀ (s : State) (a b : Nat), a < s.cfg.pbufWords → b < s.cfg.pbufWords →
    ∃ t u, exec (.writeRaw a) s = .next t ∧ exec (.readRaw b) t = .next u ∧
      u.result = (if b = a then s.arg0 else s.word b) ∧ u.err = s.err

/-- R168: TOTAL_WORDS loads after a CONFIG put every stream word at its destination, byte-swapped, mark the image loaded and
leave every other word of PBUF as it was. Each load is two steps: the write of ARG0 and the write of CMD. -/
def Obligations.LoadCompleteness : Prop :=
  ∀ (s : State) (stream : List Word) (rest : List BusEvent), s.Sound → s.resetDone = true →
    s.configured = true → s.loadCount = 0 → s.err = 0 → stream.length = s.totalWords →
    ∃ t, Sys2Proof.core.run (2 * stream.length) { s with inbox := loadEvents stream ++ rest } = .next t ∧
      t.inbox = rest ∧ t.err = 0 ∧ t.loaded = true ∧
      (∀ k, k < stream.length → t.word (dest s k) = bswap32 (stream.getD k 0)) ∧
      (∀ a, s.totalWords ≤ a → t.word a = s.word a) ∧
      t.imgWidth = s.imgWidth ∧ t.imgHeight = s.imgHeight

/-! ### Extractor commands (42_extractor.md) -/

/-- R181, R183: Span returns the `w` stream bits from `p` on, right-justified, below 2^w, so RESULT holds it whole; in the
crossing case it is the slice of the two words' concatenation. -/
def Obligations.SpanReadsTheBitstream : Prop :=
  ∀ (s : State) (p w : Nat), 1 ≤ w → w ≤ 32 → p + w ≤ 32 * s.cfg.pbufWords →
    ∃ v, span s p w = .ok v ∧ v < 2 ^ w ∧ (trunc32 v).toNat = v ∧
      (∀ i, i < w → v.testBit (w - 1 - i) = s.streamBit (p + i)) ∧
      (p % 32 + w ≤ 32 → v = (s.word (p / 32)).toNat / 2 ^ (32 - p % 32 - w) % 2 ^ w) ∧
      (32 < p % 32 + w →
        v = ((s.word (p / 32)).toNat * 2 ^ 32 + (s.word (p / 32 + 1)).toNat) / 2 ^ (64 - p % 32 - w) % 2 ^ w)

/-- R182: Span depends on word `p div 32` alone in the non-crossing case, on it and the next word in the crossing case, and
the words it reads exist exactly when the span ends inside PBUF. -/
def Obligations.SpanReadsItsWordsAlone : Prop :=
  ∀ (s s' : State) (p w : Nat), 1 ≤ w → w ≤ 32 → s.cfg = s'.cfg →
    s.word (p / 32) = s'.word (p / 32) →
    (32 < p % 32 + w → s.word (p / 32 + 1) = s'.word (p / 32 + 1)) →
    span s p w = span s' p w ∧
    (p + w ≤ 32 * s.cfg.pbufWords ↔
      p / 32 < s.cfg.pbufWords ∧ (32 < p % 32 + w → p / 32 + 1 < s.cfg.pbufWords))

/-- R186: EXTRACT_SPAN writes the span's bits to RESULT, right-justified, or raises the first error that applies. -/
def Obligations.ExtractSpanByOperands : Prop :=
  ∀ (s : State) (w : Nat),
    ((w = 0 ∨ 33 ≤ w) →
      exec (.extractSpan w) s = .next { s with err := 0x4, errCmd := encode (.extractSpan w) }) ∧
    (1 ≤ w → w ≤ 32 → 32 * s.cfg.pbufWords < s.arg0.toNat + w →
      exec (.extractSpan w) s = .next { s with err := 0xA, errCmd := encode (.extractSpan w) }) ∧
    (1 ≤ w → w ≤ 32 → s.arg0.toNat + w ≤ 32 * s.cfg.pbufWords →
      ∃ t, exec (.extractSpan w) s = .next t ∧ t = { s with result := t.result } ∧
        (∀ i, i < w → t.result.getLsbD (w - 1 - i) = s.streamBit (s.arg0.toNat + i)) ∧
        ∀ b, w ≤ b → t.result.getLsbD b = false)

/-- R187: GLYPH_START writes the glyph's start bit to RESULT without reduction, or raises the first error that applies. -/
def Obligations.GlyphStartByState : Prop :=
  ∀ (s : State) (g : Nat),
    (s.configured = false →
      exec (.glyphStart g) s = .next { s with err := 0x2, errCmd := encode (.glyphStart g) }) ∧
    (s.configured = true → 128 ≤ g →
      exec (.glyphStart g) s = .next { s with err := 0x8, errCmd := encode (.glyphStart g) }) ∧
    (s.configured = true → g < 128 → s.geometryWf →
      ∃ t, exec (.glyphStart g) s = .next t ∧ t = { s with result := t.result } ∧
        t.result.toNat =
          g % 64 * s.charWidth + (if g < 64 then 0 else s.charHeight * s.wordsPerLine * 32))

/-- R188, R190: in every state the block can reach, EXTRACT_ROW writes to RESULT the pixels of its scanline, leftmost first,
or raises the first error that applies; E_BOUNDS is never raised. -/
def Obligations.ExtractRowByState : Prop :=
  ∀ (s : State) (g : Nat), s.geometryWf →
    (s.configured = false →
      exec (.extractRow g) s = .next { s with err := 0x2, errCmd := encode (.extractRow g) }) ∧
    (s.configured = true → s.loadCount.toNat ≠ s.totalWords →
      exec (.extractRow g) s = .next { s with err := 0x6, errCmd := encode (.extractRow g) }) ∧
    (s.configured = true → s.loadCount.toNat = s.totalWords → 128 ≤ g →
      exec (.extractRow g) s = .next { s with err := 0x8, errCmd := encode (.extractRow g) }) ∧
    (s.configured = true → s.loadCount.toNat = s.totalWords → g < 128 → s.charHeight ≤ s.arg0.toNat →
      exec (.extractRow g) s = .next { s with err := 0x9, errCmd := encode (.extractRow g) }) ∧
    (s.configured = true → s.loadCount.toNat = s.totalWords → g < 128 → s.arg0.toNat < s.charHeight →
      ∃ t, exec (.extractRow g) s = .next t ∧ t = { s with result := t.result } ∧
        (∀ c, c < s.charWidth → t.result.getLsbD (s.charWidth - 1 - c) =
          s.streamBit ((g / 64 * s.charHeight + s.arg0.toNat) * s.wordsPerLine * 32 + g % 64 * s.charWidth + c)) ∧
        ∀ b, s.charWidth ≤ b → t.result.getLsbD b = false)

/-- R189: the span of every glyph scanline lies inside its logical row, inside the image, inside PBUF. -/
def Obligations.GlyphWindowsStayInTheirRow : Prop :=
  ∀ (s : State) (g r : Nat), s.geometryWf → s.configured = true → g < 128 → r < s.charHeight →
    rowBit s g r = (g / 64 * s.charHeight + r) * s.wordsPerLine * 32 + g % 64 * s.charWidth ∧
    g / 64 * s.charHeight + r ≤ 2 * s.charHeight - 1 ∧ 2 * s.charHeight - 1 ≤ s.imgHeight.toNat - 1 ∧
    g % 64 * s.charWidth + s.charWidth ≤ 64 * s.charWidth ∧ 64 * s.charWidth = s.wordsPerLine * 32 ∧
    rowBit s g r + s.charWidth ≤ 32 * s.totalWords ∧ 32 * s.totalWords ≤ 32 * s.cfg.pbufWords

/-- R191: which glyph scanlines cross a word boundary. -/
def Obligations.GlyphCrossingCondition : Prop :=
  ∀ (s : State) (g r : Nat), s.geometryWf → s.configured = true → g < 128 → r < s.charHeight →
    (32 < rowBit s g r % 32 + s.charWidth ↔ 32 < g % 64 * s.charWidth % 32 + s.charWidth) ∧
    (s.charWidth ∈ [1, 2, 4, 8, 16, 32] → rowBit s g r % 32 + s.charWidth ≤ 32) ∧
    (s.charWidth = 3 → (32 < rowBit s g r % 32 + s.charWidth ↔ g % 64 ∈ [10, 21, 42, 53]))

/-- R189 (its last clause): with the image loaded, every word of the image has been written, so every word an EXTRACT_ROW
reads has. -/
def Obligations.LoadedImageIsWritten : Prop :=
  ∀ s : State, s.geometryWf → s.loadedWritten → s.loaded = true →
    (∀ a, a < s.totalWords → s.written a = true) ∧
    ∀ g r, g < 128 → r < s.charHeight →
      s.written (rowBit s g r / 32) = true ∧
      (32 < rowBit s g r % 32 + s.charWidth → s.written (rowBit s g r / 32 + 1) = true)

/-- R74, R76, R163, R168, R190: from a sound configured state, loading a file's stream words and extracting scanline `r` of
glyph `g` gives in RESULT the file's own pixels of that scanline, leftmost first. -/
def Obligations.ExtractedRowIsTheFilesPixels : Prop :=
  ∀ (s : State) (stream : List Word) (g r : Nat), s.Sound → s.resetDone = true → s.configured = true →
    s.loadCount = 0 → s.err = 0 → stream.length = s.totalWords → g < 128 → r < s.charHeight →
    ∃ t, Sys2Proof.core.run (2 * stream.length + 2)
        { s with inbox := loadEvents stream ++ (ScriptLine.extractRowI g (trunc32 r)).expand } = .next t ∧
      t.err = 0 ∧
      (∀ c, c < s.charWidth → t.result.getLsbD (s.charWidth - 1 - c) =
        filePixel stream s.bytesPerLine s.imgHeight.toNat (g % 64 * s.charWidth + c) (g / 64 * s.charHeight + r)) ∧
      ∀ b, s.charWidth ≤ b → t.result.getLsbD b = false

/-! ### Rules over every command and every step -/

/-- R39, R40 and the model's own fields: no command changes ARG0, ARG1, the configuration, the queue, the reply or the reset
marks. -/
def Obligations.CommandsKeepOperands : Prop :=
  ∀ (i : Instr) (s t : State), exec i s = .next t →
    t.arg0 = s.arg0 ∧ t.arg1 = s.arg1 ∧ t.cfg = s.cfg ∧ t.inbox = s.inbox ∧ t.reply = s.reply ∧
    t.resetDone = s.resetDone ∧ t.cutCount = s.cutCount

/-- R42: RESULT changes only under the five result commands, and only when they record no error. -/
def Obligations.ResultWrittenByResultCommands : Prop :=
  ∀ (i : Instr) (s t : State), exec i s = .next t → t.result ≠ s.result →
    i.opcode ∈ [Opcode.readRaw, .bswap, .extractSpan, .glyphStart, .extractRow] ∧ t = { s with result := t.result }

/-- R51: PBUF changes only under LOAD, at the destination of its stream word, and under WRITE_RAW, at its ADDR. -/
def Obligations.PbufWrittenByLoadAndWriteRaw : Prop :=
  ∀ (i : Instr) (s t : State), exec i s = .next t →
    (i.opcode ≠ .load → i.opcode ≠ .writeRaw → t.pbuf = s.pbuf) ∧
    (i = .load → ∀ b, b ≠ dest s s.loadCount.toNat → t.word b = s.word b) ∧
    ∀ addr, i = .writeRaw addr → ∀ b, b ≠ addr → t.word b = s.word b

/-- R36, R43, R44, R50: the geometry changes only under CONFIG and reset; CONFIGURED is cleared only by reset; LOAD_COUNT
changes only under CONFIG, reset and a LOAD that succeeds, which adds 1. -/
def Obligations.GeometryChangesByConfigOrReset : Prop :=
  ∀ s t : State, step s = .next t →
    (∀ rest, s.inbox ≠ .reset :: rest) → (∀ x rest, s.inbox ≠ .resetDuring x :: rest) →
    (s.configured = true → t.configured = true) ∧
    ((∀ rest, s.inbox ≠ .transfer (.write Reg.cmd.addr 0x10000000) :: rest) →
      t.configured = s.configured ∧ t.imgWidth = s.imgWidth ∧ t.imgHeight = s.imgHeight ∧
      (t.loadCount = s.loadCount ∨
        t.loadCount = s.loadCount + 1 ∧ s.err = 0 ∧ t.err = 0 ∧
          ∃ rest, s.inbox = .transfer (.write Reg.cmd.addr 0x20000000) :: rest))

/-- R52: every step keeps the invariant of the reachable states, from every state that has it; that PBUF keeps its canonical
form is the model's choice of form (log 3). -/
def Obligations.StepKeepsSound : Prop :=
  ∀ s t : State, s.Sound → step s = .next t → t.Sound

/-- R52, R230: the state after reset has both invariants. The state at power-up starts them too, in the form that the steps
keep: its PBUF is canonical, and the clauses about registers, which R52 states of states reachable from reset, ask nothing
until the first reset. That power-up lists no word of PBUF (log 4) and has `resetDone` false (log 6) is the model's choice. -/
def Obligations.ResetIsSound : Prop :=
  State.reset.Sound ∧ State.reset.loadedWritten ∧
  ∀ cfg inbox, (powerUp cfg inbox).Sound ∧
    ((powerUp cfg inbox).resetDone = true → (powerUp cfg inbox).loadedWritten)

/-- R168, R189: every step keeps that the destination of every stream word accepted since the last CONFIG has been written
since power-up (by its LOAD, or over it by a later WRITE_RAW). -/
def Obligations.StepKeepsLoadedWritten : Prop :=
  ∀ s t : State, s.Sound → (s.resetDone = true → s.loadedWritten) → step s = .next t →
    t.resetDone = true → t.loadedWritten

/-- R114, R239: in a sound state after reset every step completes; no command stops the block. -/
def Obligations.SoundStepCompletes : Prop :=
  ∀ s : State, s.Sound → (s.resetDone = true → ∃ t, step s = .next t) ∧ faults (step s) = false

/-- R9, R30: PBUF_WORDS is a parameter, which no step changes. -/
def Obligations.ConfigurationIsConstant : Prop :=
  ∀ s t : State, step s = .next t → t.cfg = s.cfg

/-- 20_memory.md R70 and log 3: in canonical form, equal contents are equal data. The model's own choice of form. -/
def Obligations.CanonicalMemoryIsItsContents : Prop :=
  ∀ (n : Nat) (m m' : Memory), Memory.wf n m = true → Memory.wf n m' = true →
    (∀ a, Memory.lookup m a = Memory.lookup m' a) → m = m'

/-! ### The host script and the signal level -/

/-- R116: the pseudo-instructions' expansions, in order. -/
def Obligations.PseudoInstructionExpansions : Prop :=
  (∀ w h, (ScriptLine.configI w h).expand =
    [.transfer (.write (0x10 / 4) w), .transfer (.write (0x14 / 4) h), .transfer (.write (0x18 / 4) 0x10000000)]) ∧
  (∀ v, (ScriptLine.loadI v).expand =
    [.transfer (.write (0x10 / 4) v), .transfer (.write (0x18 / 4) 0x20000000)]) ∧
  (∀ a v, (ScriptLine.writeRawI a v).expand =
    [.transfer (.write (0x10 / 4) v), .transfer (.write (0x18 / 4) (encode (.writeRaw a)))]) ∧
  (∀ v, (ScriptLine.bswapI v).expand =
    [.transfer (.write (0x10 / 4) v), .transfer (.write (0x18 / 4) 0x50000000)]) ∧
  (∀ p w, (ScriptLine.extractSpanI p w).expand =
    [.transfer (.write (0x10 / 4) p), .transfer (.write (0x18 / 4) (encode (.extractSpan w)))]) ∧
  (∀ g r, (ScriptLine.extractRowI g r).expand =
    [.transfer (.write (0x10 / 4) r), .transfer (.write (0x18 / 4) (encode (.extractRow g)))]) ∧
  ScriptLine.check.expand = [.transfer (.read (0x08 / 4))]

/-- R93: whatever the pins do over a run of clock edges, the block ends as after the transaction-level steps of the run's
completed transactions and resets, in completion order. A run in which the host breaks the protocol is refused (log 14).
Latencies are a parameter (log 12), and which transactions and cuts the edges of a run hold (`Signals.events`) is the
model's reading of R90 (log 13). -/
def Obligations.SignalsRefineTransactions : Prop :=
  ∀ (ins : List (Nat × Pins)) (c c' : Signals) (rest : List BusEvent), Signals.run ins c = .next c' →
    Sys2Proof.core.run (Signals.events ins c).length
        { c.block with inbox := Signals.events ins c ++ rest } =
      .next { c'.block with inbox := rest }

/-- R90: a transaction whose signals the host holds is acknowledged after its latency, at least one cycle after its start, in
exactly one cycle, and the block is then as the transaction leaves it. The latency is a parameter (log 12); that
the edge that ends the ack cycle already samples the next request is the model's reading of R90 (log 13). -/
def Obligations.TransactionTiming : Prop :=
  ∀ (extra : Nat) (p : Pins) (c : Signals), c.block.Sound → c.block.resetDone = true → c.phase = .idle →
    p.rstN = true → p.req = true →
    (∀ n, n ≤ extra → ∃ d, Signals.run ((extra, p) :: List.replicate n (0, p)) c = .next d ∧
      d.ack = false ∧ d.block = c.block) ∧
    ∃ d, Signals.run ((extra, p) :: List.replicate (extra + 1) (0, p)) c = .next d ∧ d.ack = true ∧
      transfer p.latch.transaction c.block = .next d.block ∧
      ∀ (e : Nat) (q : Pins) (d' : Signals), Signals.edge e q d = .next d' → d'.ack = false

/-- R231, R232: at an edge with rst_n = 0 the block is reset and idle, without ack, and no transaction starts. With no
transaction in progress that is the reset alone; with one in progress it is the cut of that transaction, with every register
at its reset value. That a reset at the edge that ends an ack cycle cuts nothing is the model's reading (log 13); whether
the cut command wrote its word is a free choice (log 5). -/
def Obligations.ResetPinResetsTheBlock : Prop :=
  ∀ (extra : Nat) (p : Pins) (c : Signals), p.rstN = false →
    ((∀ l n, c.phase ≠ .busy l n) →
      Signals.edge extra p c = .next { block := applyReset c.block, phase := .idle }) ∧
    (∀ l n, c.phase = .busy l n → c.block.resetDone = true →
      ∃ b, perform (.resetDuring l.transaction) c.block = .next b ∧
        Signals.edge extra p c = .next { block := b, phase := .idle } ∧
        b = { c.block with
          reply := .idle, arg0 := 0, arg1 := 0, result := 0, err := 0, errCmd := 0, configured := false, imgWidth := 0,
          imgHeight := 0, loadCount := 0, pbuf := b.pbuf, cutCount := b.cutCount }) ∧
    ∀ d, Signals.edge extra p c = .next d → d.phase = .idle ∧ d.ack = false
end

