-- ==== Sys2Proof/Laws/Encoding.lean ====
section
/-! SUPPORT. The bits of command words, and what the mask and match columns say as arithmetic (30_encoding.md R106). -/

namespace Sys2Proof

theorem commandWord_toNat {opc f : Nat} (ho : opc < 16) (hf : f < 2 ^ 28) :
    (commandWord opc f).toNat = opc * 2 ^ 28 + f := by
  simp only [commandWord, BitVec.toNat_ofNat]; omega

/-- Masking a word with ones from bit `k` up clears its low `k` bits. -/
theorem and_high_toNat (c : Word) (k : Nat) (m : Word) (hm : m.toNat = (2 ^ (32 - k) - 1) * 2 ^ k) :
    (c &&& m).toNat = c.toNat / 2 ^ k * 2 ^ k := by
  rw [BitVec.toNat_and, hm]
  apply Nat.eq_of_testBit_eq
  intro j
  have hc : c.toNat < 2 ^ 32 := c.isLt
  simp only [Nat.testBit_and, Nat.testBit_mul_two_pow, Nat.testBit_two_pow_sub_one, Nat.testBit_div_two_pow]
  by_cases h1 : k ≤ j
  · by_cases h2 : j - k < 32 - k
    · simp [h1, h2, show j - k + k = j by omega]
    · have : c.toNat.testBit j = false :=
        Nat.testBit_lt_two_pow (lt_of_lt_of_le hc (Nat.pow_le_pow_right (by norm_num) (by omega)))
      simp [h1, h2, show j - k + k = j by omega, this]
  · simp [h1]

/-- What matching a row of the opcode map says of the word's number. -/
theorem and_mask_eq_match (op : Opcode) (c : Word) : c &&& op.mask = op.matchWord ↔
    (match op with
    | .nop => c.toNat = 0
    | .config => c.toNat = 1 * 2 ^ 28
    | .load => c.toNat = 2 * 2 ^ 28
    | .writeRaw => c.toNat / 2 ^ 24 = 0x30
    | .readRaw => c.toNat / 2 ^ 24 = 0x40
    | .bswap => c.toNat = 5 * 2 ^ 28
    | .extractSpan => c.toNat / 2 ^ 6 = 6 * 2 ^ 22
    | .glyphStart => c.toNat / 2 ^ 8 = 7 * 2 ^ 20
    | .extractRow => c.toNat / 2 ^ 8 = 8 * 2 ^ 20
    | .clearErr => c.toNat = 9 * 2 ^ 28) := by
  cases op <;> simp only [Opcode.mask, Opcode.matchWord, ← BitVec.toNat_inj]
  all_goals
    first
    | rw [and_high_toNat c 0 _ (by decide)]
    | rw [and_high_toNat c 24 _ (by decide)]
    | rw [and_high_toNat c 6 _ (by decide)]
    | rw [and_high_toNat c 8 _ (by decide)]
  all_goals simp
  all_goals omega

end Sys2Proof
end

