-- ==== Sys2Proof/Laws/State.lean ====
section
/-! SUPPORT. What each named update of the state leaves in each field. -/

namespace Sys2Proof.Machine

/-! ### setResult -/

@[simp] theorem setResult_cfg (s : State) (v : Nat) : (setResult s v).cfg = s.cfg := rfl
@[simp] theorem setResult_arg0 (s : State) (v : Nat) : (setResult s v).arg0 = s.arg0 := rfl
@[simp] theorem setResult_arg1 (s : State) (v : Nat) : (setResult s v).arg1 = s.arg1 := rfl
@[simp] theorem setResult_result (s : State) (v : Nat) : (setResult s v).result = trunc32 v := rfl
@[simp] theorem setResult_err (s : State) (v : Nat) : (setResult s v).err = s.err := rfl
@[simp] theorem setResult_errCmd (s : State) (v : Nat) : (setResult s v).errCmd = s.errCmd := rfl
@[simp] theorem setResult_configured (s : State) (v : Nat) : (setResult s v).configured = s.configured := rfl
@[simp] theorem setResult_imgWidth (s : State) (v : Nat) : (setResult s v).imgWidth = s.imgWidth := rfl
@[simp] theorem setResult_imgHeight (s : State) (v : Nat) : (setResult s v).imgHeight = s.imgHeight := rfl
@[simp] theorem setResult_loadCount (s : State) (v : Nat) : (setResult s v).loadCount = s.loadCount := rfl
@[simp] theorem setResult_pbuf (s : State) (v : Nat) : (setResult s v).pbuf = s.pbuf := rfl
@[simp] theorem setResult_resetDone (s : State) (v : Nat) : (setResult s v).resetDone = s.resetDone := rfl
@[simp] theorem setResult_inbox (s : State) (v : Nat) : (setResult s v).inbox = s.inbox := rfl
@[simp] theorem setResult_reply (s : State) (v : Nat) : (setResult s v).reply = s.reply := rfl
@[simp] theorem setResult_cutCount (s : State) (v : Nat) : (setResult s v).cutCount = s.cutCount := rfl
@[simp] theorem setResult_charWidth (s : State) (v : Nat) : (setResult s v).charWidth = s.charWidth := rfl
@[simp] theorem setResult_charHeight (s : State) (v : Nat) : (setResult s v).charHeight = s.charHeight := rfl
@[simp] theorem setResult_wordsPerLine (s : State) (v : Nat) : (setResult s v).wordsPerLine = s.wordsPerLine := rfl
@[simp] theorem setResult_totalWords (s : State) (v : Nat) : (setResult s v).totalWords = s.totalWords := rfl
@[simp] theorem setResult_dest (s : State) (v : Nat) (k' : Nat) : dest (setResult s v) k' = dest s k' := rfl
@[simp] theorem setResult_word (s : State) (v : Nat) (a' : Nat) : (setResult s v).word a' = s.word a' := rfl
@[simp] theorem setResult_written (s : State) (v : Nat) (a' : Nat) : (setResult s v).written a' = s.written a' := rfl

/-! ### raise -/

@[simp] theorem raise_cfg (e : ErrorCode) (c : Word) (s : State) : (raise e c s).cfg = s.cfg := rfl
@[simp] theorem raise_arg0 (e : ErrorCode) (c : Word) (s : State) : (raise e c s).arg0 = s.arg0 := rfl
@[simp] theorem raise_arg1 (e : ErrorCode) (c : Word) (s : State) : (raise e c s).arg1 = s.arg1 := rfl
@[simp] theorem raise_result (e : ErrorCode) (c : Word) (s : State) : (raise e c s).result = s.result := rfl
@[simp] theorem raise_err (e : ErrorCode) (c : Word) (s : State) : (raise e c s).err = e.code := rfl
@[simp] theorem raise_errCmd (e : ErrorCode) (c : Word) (s : State) : (raise e c s).errCmd = c := rfl
@[simp] theorem raise_configured (e : ErrorCode) (c : Word) (s : State) : (raise e c s).configured = s.configured := rfl
@[simp] theorem raise_imgWidth (e : ErrorCode) (c : Word) (s : State) : (raise e c s).imgWidth = s.imgWidth := rfl
@[simp] theorem raise_imgHeight (e : ErrorCode) (c : Word) (s : State) : (raise e c s).imgHeight = s.imgHeight := rfl
@[simp] theorem raise_loadCount (e : ErrorCode) (c : Word) (s : State) : (raise e c s).loadCount = s.loadCount := rfl
@[simp] theorem raise_pbuf (e : ErrorCode) (c : Word) (s : State) : (raise e c s).pbuf = s.pbuf := rfl
@[simp] theorem raise_resetDone (e : ErrorCode) (c : Word) (s : State) : (raise e c s).resetDone = s.resetDone := rfl
@[simp] theorem raise_inbox (e : ErrorCode) (c : Word) (s : State) : (raise e c s).inbox = s.inbox := rfl
@[simp] theorem raise_reply (e : ErrorCode) (c : Word) (s : State) : (raise e c s).reply = s.reply := rfl
@[simp] theorem raise_cutCount (e : ErrorCode) (c : Word) (s : State) : (raise e c s).cutCount = s.cutCount := rfl
@[simp] theorem raise_charWidth (e : ErrorCode) (c : Word) (s : State) : (raise e c s).charWidth = s.charWidth := rfl
@[simp] theorem raise_charHeight (e : ErrorCode) (c : Word) (s : State) : (raise e c s).charHeight = s.charHeight := rfl
@[simp] theorem raise_wordsPerLine (e : ErrorCode) (c : Word) (s : State) : (raise e c s).wordsPerLine = s.wordsPerLine := rfl
@[simp] theorem raise_totalWords (e : ErrorCode) (c : Word) (s : State) : (raise e c s).totalWords = s.totalWords := rfl
@[simp] theorem raise_dest (e : ErrorCode) (c : Word) (s : State) (k' : Nat) : dest (raise e c s) k' = dest s k' := rfl
@[simp] theorem raise_word (e : ErrorCode) (c : Word) (s : State) (a' : Nat) : (raise e c s).word a' = s.word a' := rfl
@[simp] theorem raise_written (e : ErrorCode) (c : Word) (s : State) (a' : Nat) : (raise e c s).written a' = s.written a' := rfl

/-! ### clearError -/

@[simp] theorem clearError_cfg (s : State) : (clearError s).cfg = s.cfg := rfl
@[simp] theorem clearError_arg0 (s : State) : (clearError s).arg0 = s.arg0 := rfl
@[simp] theorem clearError_arg1 (s : State) : (clearError s).arg1 = s.arg1 := rfl
@[simp] theorem clearError_result (s : State) : (clearError s).result = s.result := rfl
@[simp] theorem clearError_err (s : State) : (clearError s).err = 0 := rfl
@[simp] theorem clearError_errCmd (s : State) : (clearError s).errCmd = s.errCmd := rfl
@[simp] theorem clearError_configured (s : State) : (clearError s).configured = s.configured := rfl
@[simp] theorem clearError_imgWidth (s : State) : (clearError s).imgWidth = s.imgWidth := rfl
@[simp] theorem clearError_imgHeight (s : State) : (clearError s).imgHeight = s.imgHeight := rfl
@[simp] theorem clearError_loadCount (s : State) : (clearError s).loadCount = s.loadCount := rfl
@[simp] theorem clearError_pbuf (s : State) : (clearError s).pbuf = s.pbuf := rfl
@[simp] theorem clearError_resetDone (s : State) : (clearError s).resetDone = s.resetDone := rfl
@[simp] theorem clearError_inbox (s : State) : (clearError s).inbox = s.inbox := rfl
@[simp] theorem clearError_reply (s : State) : (clearError s).reply = s.reply := rfl
@[simp] theorem clearError_cutCount (s : State) : (clearError s).cutCount = s.cutCount := rfl
@[simp] theorem clearError_charWidth (s : State) : (clearError s).charWidth = s.charWidth := rfl
@[simp] theorem clearError_charHeight (s : State) : (clearError s).charHeight = s.charHeight := rfl
@[simp] theorem clearError_wordsPerLine (s : State) : (clearError s).wordsPerLine = s.wordsPerLine := rfl
@[simp] theorem clearError_totalWords (s : State) : (clearError s).totalWords = s.totalWords := rfl
@[simp] theorem clearError_dest (s : State) (k' : Nat) : dest (clearError s) k' = dest s k' := rfl
@[simp] theorem clearError_word (s : State) (a' : Nat) : (clearError s).word a' = s.word a' := rfl
@[simp] theorem clearError_written (s : State) (a' : Nat) : (clearError s).written a' = s.written a' := rfl

/-! ### storeWord -/

@[simp] theorem storeWord_cfg (s : State) (a : Nat) (v : Word) : (storeWord s a v).cfg = s.cfg := rfl
@[simp] theorem storeWord_arg0 (s : State) (a : Nat) (v : Word) : (storeWord s a v).arg0 = s.arg0 := rfl
@[simp] theorem storeWord_arg1 (s : State) (a : Nat) (v : Word) : (storeWord s a v).arg1 = s.arg1 := rfl
@[simp] theorem storeWord_result (s : State) (a : Nat) (v : Word) : (storeWord s a v).result = s.result := rfl
@[simp] theorem storeWord_err (s : State) (a : Nat) (v : Word) : (storeWord s a v).err = s.err := rfl
@[simp] theorem storeWord_errCmd (s : State) (a : Nat) (v : Word) : (storeWord s a v).errCmd = s.errCmd := rfl
@[simp] theorem storeWord_configured (s : State) (a : Nat) (v : Word) : (storeWord s a v).configured = s.configured := rfl
@[simp] theorem storeWord_imgWidth (s : State) (a : Nat) (v : Word) : (storeWord s a v).imgWidth = s.imgWidth := rfl
@[simp] theorem storeWord_imgHeight (s : State) (a : Nat) (v : Word) : (storeWord s a v).imgHeight = s.imgHeight := rfl
@[simp] theorem storeWord_loadCount (s : State) (a : Nat) (v : Word) : (storeWord s a v).loadCount = s.loadCount := rfl
@[simp] theorem storeWord_pbuf (s : State) (a : Nat) (v : Word) : (storeWord s a v).pbuf = Memory.store s.pbuf a v := rfl
@[simp] theorem storeWord_resetDone (s : State) (a : Nat) (v : Word) : (storeWord s a v).resetDone = s.resetDone := rfl
@[simp] theorem storeWord_inbox (s : State) (a : Nat) (v : Word) : (storeWord s a v).inbox = s.inbox := rfl
@[simp] theorem storeWord_reply (s : State) (a : Nat) (v : Word) : (storeWord s a v).reply = s.reply := rfl
@[simp] theorem storeWord_cutCount (s : State) (a : Nat) (v : Word) : (storeWord s a v).cutCount = s.cutCount := rfl
@[simp] theorem storeWord_charWidth (s : State) (a : Nat) (v : Word) : (storeWord s a v).charWidth = s.charWidth := rfl
@[simp] theorem storeWord_charHeight (s : State) (a : Nat) (v : Word) : (storeWord s a v).charHeight = s.charHeight := rfl
@[simp] theorem storeWord_wordsPerLine (s : State) (a : Nat) (v : Word) : (storeWord s a v).wordsPerLine = s.wordsPerLine := rfl
@[simp] theorem storeWord_totalWords (s : State) (a : Nat) (v : Word) : (storeWord s a v).totalWords = s.totalWords := rfl
@[simp] theorem storeWord_dest (s : State) (a : Nat) (v : Word) (k' : Nat) : dest (storeWord s a v) k' = dest s k' := rfl

/-! ### setArg0 -/

@[simp] theorem setArg0_cfg (s : State) (v : Word) : (setArg0 s v).cfg = s.cfg := rfl
@[simp] theorem setArg0_arg0 (s : State) (v : Word) : (setArg0 s v).arg0 = v := rfl
@[simp] theorem setArg0_arg1 (s : State) (v : Word) : (setArg0 s v).arg1 = s.arg1 := rfl
@[simp] theorem setArg0_result (s : State) (v : Word) : (setArg0 s v).result = s.result := rfl
@[simp] theorem setArg0_err (s : State) (v : Word) : (setArg0 s v).err = s.err := rfl
@[simp] theorem setArg0_errCmd (s : State) (v : Word) : (setArg0 s v).errCmd = s.errCmd := rfl
@[simp] theorem setArg0_configured (s : State) (v : Word) : (setArg0 s v).configured = s.configured := rfl
@[simp] theorem setArg0_imgWidth (s : State) (v : Word) : (setArg0 s v).imgWidth = s.imgWidth := rfl
@[simp] theorem setArg0_imgHeight (s : State) (v : Word) : (setArg0 s v).imgHeight = s.imgHeight := rfl
@[simp] theorem setArg0_loadCount (s : State) (v : Word) : (setArg0 s v).loadCount = s.loadCount := rfl
@[simp] theorem setArg0_pbuf (s : State) (v : Word) : (setArg0 s v).pbuf = s.pbuf := rfl
@[simp] theorem setArg0_resetDone (s : State) (v : Word) : (setArg0 s v).resetDone = s.resetDone := rfl
@[simp] theorem setArg0_inbox (s : State) (v : Word) : (setArg0 s v).inbox = s.inbox := rfl
@[simp] theorem setArg0_reply (s : State) (v : Word) : (setArg0 s v).reply = s.reply := rfl
@[simp] theorem setArg0_cutCount (s : State) (v : Word) : (setArg0 s v).cutCount = s.cutCount := rfl
@[simp] theorem setArg0_charWidth (s : State) (v : Word) : (setArg0 s v).charWidth = s.charWidth := rfl
@[simp] theorem setArg0_charHeight (s : State) (v : Word) : (setArg0 s v).charHeight = s.charHeight := rfl
@[simp] theorem setArg0_wordsPerLine (s : State) (v : Word) : (setArg0 s v).wordsPerLine = s.wordsPerLine := rfl
@[simp] theorem setArg0_totalWords (s : State) (v : Word) : (setArg0 s v).totalWords = s.totalWords := rfl
@[simp] theorem setArg0_dest (s : State) (v : Word) (k' : Nat) : dest (setArg0 s v) k' = dest s k' := rfl
@[simp] theorem setArg0_word (s : State) (v : Word) (a' : Nat) : (setArg0 s v).word a' = s.word a' := rfl
@[simp] theorem setArg0_written (s : State) (v : Word) (a' : Nat) : (setArg0 s v).written a' = s.written a' := rfl

/-! ### setArg1 -/

@[simp] theorem setArg1_cfg (s : State) (v : Word) : (setArg1 s v).cfg = s.cfg := rfl
@[simp] theorem setArg1_arg0 (s : State) (v : Word) : (setArg1 s v).arg0 = s.arg0 := rfl
@[simp] theorem setArg1_arg1 (s : State) (v : Word) : (setArg1 s v).arg1 = v := rfl
@[simp] theorem setArg1_result (s : State) (v : Word) : (setArg1 s v).result = s.result := rfl
@[simp] theorem setArg1_err (s : State) (v : Word) : (setArg1 s v).err = s.err := rfl
@[simp] theorem setArg1_errCmd (s : State) (v : Word) : (setArg1 s v).errCmd = s.errCmd := rfl
@[simp] theorem setArg1_configured (s : State) (v : Word) : (setArg1 s v).configured = s.configured := rfl
@[simp] theorem setArg1_imgWidth (s : State) (v : Word) : (setArg1 s v).imgWidth = s.imgWidth := rfl
@[simp] theorem setArg1_imgHeight (s : State) (v : Word) : (setArg1 s v).imgHeight = s.imgHeight := rfl
@[simp] theorem setArg1_loadCount (s : State) (v : Word) : (setArg1 s v).loadCount = s.loadCount := rfl
@[simp] theorem setArg1_pbuf (s : State) (v : Word) : (setArg1 s v).pbuf = s.pbuf := rfl
@[simp] theorem setArg1_resetDone (s : State) (v : Word) : (setArg1 s v).resetDone = s.resetDone := rfl
@[simp] theorem setArg1_inbox (s : State) (v : Word) : (setArg1 s v).inbox = s.inbox := rfl
@[simp] theorem setArg1_reply (s : State) (v : Word) : (setArg1 s v).reply = s.reply := rfl
@[simp] theorem setArg1_cutCount (s : State) (v : Word) : (setArg1 s v).cutCount = s.cutCount := rfl
@[simp] theorem setArg1_charWidth (s : State) (v : Word) : (setArg1 s v).charWidth = s.charWidth := rfl
@[simp] theorem setArg1_charHeight (s : State) (v : Word) : (setArg1 s v).charHeight = s.charHeight := rfl
@[simp] theorem setArg1_wordsPerLine (s : State) (v : Word) : (setArg1 s v).wordsPerLine = s.wordsPerLine := rfl
@[simp] theorem setArg1_totalWords (s : State) (v : Word) : (setArg1 s v).totalWords = s.totalWords := rfl
@[simp] theorem setArg1_dest (s : State) (v : Word) (k' : Nat) : dest (setArg1 s v) k' = dest s k' := rfl
@[simp] theorem setArg1_word (s : State) (v : Word) (a' : Nat) : (setArg1 s v).word a' = s.word a' := rfl
@[simp] theorem setArg1_written (s : State) (v : Word) (a' : Nat) : (setArg1 s v).written a' = s.written a' := rfl

/-! ### setReply -/

@[simp] theorem setReply_cfg (s : State) (r : Reply) : (setReply s r).cfg = s.cfg := rfl
@[simp] theorem setReply_arg0 (s : State) (r : Reply) : (setReply s r).arg0 = s.arg0 := rfl
@[simp] theorem setReply_arg1 (s : State) (r : Reply) : (setReply s r).arg1 = s.arg1 := rfl
@[simp] theorem setReply_result (s : State) (r : Reply) : (setReply s r).result = s.result := rfl
@[simp] theorem setReply_err (s : State) (r : Reply) : (setReply s r).err = s.err := rfl
@[simp] theorem setReply_errCmd (s : State) (r : Reply) : (setReply s r).errCmd = s.errCmd := rfl
@[simp] theorem setReply_configured (s : State) (r : Reply) : (setReply s r).configured = s.configured := rfl
@[simp] theorem setReply_imgWidth (s : State) (r : Reply) : (setReply s r).imgWidth = s.imgWidth := rfl
@[simp] theorem setReply_imgHeight (s : State) (r : Reply) : (setReply s r).imgHeight = s.imgHeight := rfl
@[simp] theorem setReply_loadCount (s : State) (r : Reply) : (setReply s r).loadCount = s.loadCount := rfl
@[simp] theorem setReply_pbuf (s : State) (r : Reply) : (setReply s r).pbuf = s.pbuf := rfl
@[simp] theorem setReply_resetDone (s : State) (r : Reply) : (setReply s r).resetDone = s.resetDone := rfl
@[simp] theorem setReply_inbox (s : State) (r : Reply) : (setReply s r).inbox = s.inbox := rfl
@[simp] theorem setReply_reply (s : State) (r : Reply) : (setReply s r).reply = r := rfl
@[simp] theorem setReply_cutCount (s : State) (r : Reply) : (setReply s r).cutCount = s.cutCount := rfl
@[simp] theorem setReply_charWidth (s : State) (r : Reply) : (setReply s r).charWidth = s.charWidth := rfl
@[simp] theorem setReply_charHeight (s : State) (r : Reply) : (setReply s r).charHeight = s.charHeight := rfl
@[simp] theorem setReply_wordsPerLine (s : State) (r : Reply) : (setReply s r).wordsPerLine = s.wordsPerLine := rfl
@[simp] theorem setReply_totalWords (s : State) (r : Reply) : (setReply s r).totalWords = s.totalWords := rfl
@[simp] theorem setReply_dest (s : State) (r : Reply) (k' : Nat) : dest (setReply s r) k' = dest s k' := rfl
@[simp] theorem setReply_word (s : State) (r : Reply) (a' : Nat) : (setReply s r).word a' = s.word a' := rfl
@[simp] theorem setReply_written (s : State) (r : Reply) (a' : Nat) : (setReply s r).written a' = s.written a' := rfl

/-! ### setInbox -/

@[simp] theorem setInbox_cfg (s : State) (q : List BusEvent) : (setInbox s q).cfg = s.cfg := rfl
@[simp] theorem setInbox_arg0 (s : State) (q : List BusEvent) : (setInbox s q).arg0 = s.arg0 := rfl
@[simp] theorem setInbox_arg1 (s : State) (q : List BusEvent) : (setInbox s q).arg1 = s.arg1 := rfl
@[simp] theorem setInbox_result (s : State) (q : List BusEvent) : (setInbox s q).result = s.result := rfl
@[simp] theorem setInbox_err (s : State) (q : List BusEvent) : (setInbox s q).err = s.err := rfl
@[simp] theorem setInbox_errCmd (s : State) (q : List BusEvent) : (setInbox s q).errCmd = s.errCmd := rfl
@[simp] theorem setInbox_configured (s : State) (q : List BusEvent) : (setInbox s q).configured = s.configured := rfl
@[simp] theorem setInbox_imgWidth (s : State) (q : List BusEvent) : (setInbox s q).imgWidth = s.imgWidth := rfl
@[simp] theorem setInbox_imgHeight (s : State) (q : List BusEvent) : (setInbox s q).imgHeight = s.imgHeight := rfl
@[simp] theorem setInbox_loadCount (s : State) (q : List BusEvent) : (setInbox s q).loadCount = s.loadCount := rfl
@[simp] theorem setInbox_pbuf (s : State) (q : List BusEvent) : (setInbox s q).pbuf = s.pbuf := rfl
@[simp] theorem setInbox_resetDone (s : State) (q : List BusEvent) : (setInbox s q).resetDone = s.resetDone := rfl
@[simp] theorem setInbox_inbox (s : State) (q : List BusEvent) : (setInbox s q).inbox = q := rfl
@[simp] theorem setInbox_reply (s : State) (q : List BusEvent) : (setInbox s q).reply = s.reply := rfl
@[simp] theorem setInbox_cutCount (s : State) (q : List BusEvent) : (setInbox s q).cutCount = s.cutCount := rfl
@[simp] theorem setInbox_charWidth (s : State) (q : List BusEvent) : (setInbox s q).charWidth = s.charWidth := rfl
@[simp] theorem setInbox_charHeight (s : State) (q : List BusEvent) : (setInbox s q).charHeight = s.charHeight := rfl
@[simp] theorem setInbox_wordsPerLine (s : State) (q : List BusEvent) : (setInbox s q).wordsPerLine = s.wordsPerLine := rfl
@[simp] theorem setInbox_totalWords (s : State) (q : List BusEvent) : (setInbox s q).totalWords = s.totalWords := rfl
@[simp] theorem setInbox_dest (s : State) (q : List BusEvent) (k' : Nat) : dest (setInbox s q) k' = dest s k' := rfl
@[simp] theorem setInbox_word (s : State) (q : List BusEvent) (a' : Nat) : (setInbox s q).word a' = s.word a' := rfl
@[simp] theorem setInbox_written (s : State) (q : List BusEvent) (a' : Nat) : (setInbox s q).written a' = s.written a' := rfl

/-! ### advanceLoad -/

@[simp] theorem advanceLoad_cfg (k : Nat) (s : State) : (advanceLoad k s).cfg = s.cfg := rfl
@[simp] theorem advanceLoad_arg0 (k : Nat) (s : State) : (advanceLoad k s).arg0 = s.arg0 := rfl
@[simp] theorem advanceLoad_arg1 (k : Nat) (s : State) : (advanceLoad k s).arg1 = s.arg1 := rfl
@[simp] theorem advanceLoad_result (k : Nat) (s : State) : (advanceLoad k s).result = s.result := rfl
@[simp] theorem advanceLoad_err (k : Nat) (s : State) : (advanceLoad k s).err = s.err := rfl
@[simp] theorem advanceLoad_errCmd (k : Nat) (s : State) : (advanceLoad k s).errCmd = s.errCmd := rfl
@[simp] theorem advanceLoad_configured (k : Nat) (s : State) : (advanceLoad k s).configured = s.configured := rfl
@[simp] theorem advanceLoad_imgWidth (k : Nat) (s : State) : (advanceLoad k s).imgWidth = s.imgWidth := rfl
@[simp] theorem advanceLoad_imgHeight (k : Nat) (s : State) : (advanceLoad k s).imgHeight = s.imgHeight := rfl
@[simp] theorem advanceLoad_loadCount (k : Nat) (s : State) : (advanceLoad k s).loadCount = trunc32 (k + 1) := rfl
@[simp] theorem advanceLoad_pbuf (k : Nat) (s : State) : (advanceLoad k s).pbuf = s.pbuf := rfl
@[simp] theorem advanceLoad_resetDone (k : Nat) (s : State) : (advanceLoad k s).resetDone = s.resetDone := rfl
@[simp] theorem advanceLoad_inbox (k : Nat) (s : State) : (advanceLoad k s).inbox = s.inbox := rfl
@[simp] theorem advanceLoad_reply (k : Nat) (s : State) : (advanceLoad k s).reply = s.reply := rfl
@[simp] theorem advanceLoad_cutCount (k : Nat) (s : State) : (advanceLoad k s).cutCount = s.cutCount := rfl
@[simp] theorem advanceLoad_charWidth (k : Nat) (s : State) : (advanceLoad k s).charWidth = s.charWidth := rfl
@[simp] theorem advanceLoad_charHeight (k : Nat) (s : State) : (advanceLoad k s).charHeight = s.charHeight := rfl
@[simp] theorem advanceLoad_wordsPerLine (k : Nat) (s : State) : (advanceLoad k s).wordsPerLine = s.wordsPerLine := rfl
@[simp] theorem advanceLoad_totalWords (k : Nat) (s : State) : (advanceLoad k s).totalWords = s.totalWords := rfl
@[simp] theorem advanceLoad_dest (k : Nat) (s : State) (k' : Nat) : dest (advanceLoad k s) k' = dest s k' := rfl
@[simp] theorem advanceLoad_word (k : Nat) (s : State) (a' : Nat) : (advanceLoad k s).word a' = s.word a' := rfl
@[simp] theorem advanceLoad_written (k : Nat) (s : State) (a' : Nat) : (advanceLoad k s).written a' = s.written a' := rfl

/-! ### acceptGeometry -/

@[simp] theorem acceptGeometry_cfg (s : State) : (acceptGeometry s).cfg = s.cfg := rfl
@[simp] theorem acceptGeometry_arg0 (s : State) : (acceptGeometry s).arg0 = s.arg0 := rfl
@[simp] theorem acceptGeometry_arg1 (s : State) : (acceptGeometry s).arg1 = s.arg1 := rfl
@[simp] theorem acceptGeometry_result (s : State) : (acceptGeometry s).result = s.result := rfl
@[simp] theorem acceptGeometry_err (s : State) : (acceptGeometry s).err = s.err := rfl
@[simp] theorem acceptGeometry_errCmd (s : State) : (acceptGeometry s).errCmd = s.errCmd := rfl
@[simp] theorem acceptGeometry_configured (s : State) : (acceptGeometry s).configured = true := rfl
@[simp] theorem acceptGeometry_imgWidth (s : State) : (acceptGeometry s).imgWidth = s.arg0 := rfl
@[simp] theorem acceptGeometry_imgHeight (s : State) : (acceptGeometry s).imgHeight = s.arg1 := rfl
@[simp] theorem acceptGeometry_loadCount (s : State) : (acceptGeometry s).loadCount = 0 := rfl
@[simp] theorem acceptGeometry_pbuf (s : State) : (acceptGeometry s).pbuf = s.pbuf := rfl
@[simp] theorem acceptGeometry_resetDone (s : State) : (acceptGeometry s).resetDone = s.resetDone := rfl
@[simp] theorem acceptGeometry_inbox (s : State) : (acceptGeometry s).inbox = s.inbox := rfl
@[simp] theorem acceptGeometry_reply (s : State) : (acceptGeometry s).reply = s.reply := rfl
@[simp] theorem acceptGeometry_cutCount (s : State) : (acceptGeometry s).cutCount = s.cutCount := rfl
@[simp] theorem acceptGeometry_word (s : State) (a' : Nat) : (acceptGeometry s).word a' = s.word a' := rfl
@[simp] theorem acceptGeometry_written (s : State) (a' : Nat) : (acceptGeometry s).written a' = s.written a' := rfl

/-! ### applyReset -/

@[simp] theorem applyReset_cfg (s : State) : (applyReset s).cfg = s.cfg := rfl
@[simp] theorem applyReset_arg0 (s : State) : (applyReset s).arg0 = 0 := rfl
@[simp] theorem applyReset_arg1 (s : State) : (applyReset s).arg1 = 0 := rfl
@[simp] theorem applyReset_result (s : State) : (applyReset s).result = 0 := rfl
@[simp] theorem applyReset_err (s : State) : (applyReset s).err = 0 := rfl
@[simp] theorem applyReset_errCmd (s : State) : (applyReset s).errCmd = 0 := rfl
@[simp] theorem applyReset_configured (s : State) : (applyReset s).configured = false := rfl
@[simp] theorem applyReset_imgWidth (s : State) : (applyReset s).imgWidth = 0 := rfl
@[simp] theorem applyReset_imgHeight (s : State) : (applyReset s).imgHeight = 0 := rfl
@[simp] theorem applyReset_loadCount (s : State) : (applyReset s).loadCount = 0 := rfl
@[simp] theorem applyReset_pbuf (s : State) : (applyReset s).pbuf = s.pbuf := rfl
@[simp] theorem applyReset_resetDone (s : State) : (applyReset s).resetDone = true := rfl
@[simp] theorem applyReset_inbox (s : State) : (applyReset s).inbox = s.inbox := rfl
@[simp] theorem applyReset_reply (s : State) : (applyReset s).reply = .idle := rfl
@[simp] theorem applyReset_cutCount (s : State) : (applyReset s).cutCount = s.cutCount := rfl
@[simp] theorem applyReset_word (s : State) (a' : Nat) : (applyReset s).word a' = s.word a' := rfl
@[simp] theorem applyReset_written (s : State) (a' : Nat) : (applyReset s).written a' = s.written a' := rfl

end Sys2Proof.Machine
end

