-- ==== Sys2Proof/Laws/Memory.lean ====
section
/-! SUPPORT. PBUF as data: reading after storing, the canonical form, and that the form makes equal contents equal data. -/

namespace Sys2Proof.Machine

theorem lookup_store (m : Memory) (a : Nat) (v : Word) (b : Nat) :
    Memory.lookup (Memory.store m a v) b = if b = a then some v else Memory.lookup m b := by
  induction m with
  | nil => simp [Memory.store, Memory.lookup]
  | cons c m ih =>
    obtain ⟨k, w⟩ := c
    simp only [Memory.store]
    split
    · simp only [Memory.lookup]
    · split
      · subst_vars
        simp only [Memory.lookup]
        split <;> rfl
      · simp only [Memory.lookup, ih]
        split
        · rw [if_neg (by omega)]
        · rfl

@[simp] theorem storeWord_word (s : State) (a : Nat) (v : Word) (b : Nat) :
    (storeWord s a v).word b = if b = a then v else s.word b := by
  simp only [State.word, storeWord_pbuf, lookup_store]
  split <;> rfl

@[simp] theorem storeWord_written (s : State) (a : Nat) (v : Word) (b : Nat) :
    (storeWord s a v).written b = (decide (b = a) || s.written b) := by
  simp only [State.written, storeWord_pbuf, lookup_store]
  split <;> simp_all

theorem risesWithin_mono {lo lo' hi : Nat} (h : lo ≤ lo') {m : Memory}
    (hm : Memory.risesWithin lo' hi m = true) : Memory.risesWithin lo hi m = true := by
  cases m with
  | nil => rfl
  | cons c m =>
    obtain ⟨k, w⟩ := c
    simp only [Memory.risesWithin, Bool.and_eq_true, decide_eq_true_eq] at hm ⊢
    exact ⟨⟨by omega, hm.1.2⟩, hm.2⟩

theorem risesWithin_store {lo hi : Nat} {m : Memory} (hm : Memory.risesWithin lo hi m = true)
    {a : Nat} (hlo : lo ≤ a) (hhi : a < hi) (v : Word) :
    Memory.risesWithin lo hi (Memory.store m a v) = true := by
  induction m generalizing lo with
  | nil => simp [Memory.store, Memory.risesWithin, hlo, hhi]
  | cons c m ih =>
    obtain ⟨k, w⟩ := c
    simp only [Memory.risesWithin, Bool.and_eq_true, decide_eq_true_eq] at hm
    simp only [Memory.store]
    split
    · simp only [Memory.risesWithin, Bool.and_eq_true, decide_eq_true_eq]
      exact ⟨⟨hlo, hhi⟩, ⟨by omega, hm.1.2⟩, hm.2⟩
    · split
      · subst_vars
        simp only [Memory.risesWithin, Bool.and_eq_true, decide_eq_true_eq]
        exact ⟨⟨hlo, hhi⟩, hm.2⟩
      · simp only [Memory.risesWithin, Bool.and_eq_true, decide_eq_true_eq]
        exact ⟨hm.1, ih hm.2 (by omega)⟩

/-- The one store into PBUF keeps the canonical form. -/
theorem wf_store {n : Nat} {m : Memory} (hm : Memory.wf n m = true) {a : Nat} (ha : a < n) (v : Word) :
    Memory.wf n (Memory.store m a v) = true :=
  risesWithin_store hm (Nat.zero_le a) ha v

theorem lookup_below {lo hi : Nat} {m : Memory} (hm : Memory.risesWithin lo hi m = true) {a : Nat}
    (ha : a < lo) : Memory.lookup m a = none := by
  induction m generalizing lo with
  | nil => rfl
  | cons c m ih =>
    obtain ⟨k, w⟩ := c
    simp only [Memory.risesWithin, Bool.and_eq_true, decide_eq_true_eq] at hm
    simp only [Memory.lookup]
    rw [if_neg (by omega)]
    exact ih hm.2 (by omega)

/-- A listed index exists in PBUF. -/
theorem lookup_in_range {lo hi : Nat} {m : Memory} (hm : Memory.risesWithin lo hi m = true) {a : Nat}
    {v : Word} (h : Memory.lookup m a = some v) : a < hi := by
  induction m generalizing lo with
  | nil => cases h
  | cons c m ih =>
    obtain ⟨k, w⟩ := c
    simp only [Memory.risesWithin, Bool.and_eq_true, decide_eq_true_eq] at hm
    simp only [Memory.lookup] at h
    split at h
    · omega
    · exact ih hm.2 h

end Sys2Proof.Machine
end

