-- ==== Sys2Proof/Laws/Ops.lean ====
section
/-! SUPPORT. One lemma per shared operation that says all it can answer, and the bit lemmas of the datapath. -/

namespace Sys2Proof.Machine

/-! ### Outcomes -/

@[simp] theorem finish_eq_next {r : Except Fault State} {t : State} : finish r = .next t ↔ r = .ok t := by
  cases r <;> simp [finish]

@[simp] theorem finish_eq_fault {r : Except Fault State} {f : Fault} : finish r = .fault f ↔ r = .error f := by
  cases r <;> simp [finish]

@[simp] theorem finish_ne_refused {r : Except Fault State} {q : Refusal} : finish r ≠ .refused q := by
  cases r <;> simp [finish]

theorem map_eq_ok {α β : Type} {r : Except Fault α} {f : α → β} {b : β} :
    r.map f = .ok b ↔ ∃ a, r = .ok a ∧ f a = b := by
  cases r <;> simp [Except.map]

/-! ### PBUF -/

theorem memRead_eq_ok {s : State} {a : Nat} {v : Word} :
    memRead s a = .ok v ↔ a < s.cfg.pbufWords ∧ s.word a = v := by
  unfold memRead; split <;> simp_all

theorem memWrite_eq_ok {s t : State} {a : Nat} {v : Word} :
    memWrite s a v = .ok t ↔ a < s.cfg.pbufWords ∧ storeWord s a v = t := by
  unfold memWrite; split <;> simp_all

theorem memRead_of_lt {s : State} {a : Nat} (h : a < s.cfg.pbufWords) : memRead s a = .ok (s.word a) := if_pos h

theorem memWrite_of_lt {s : State} {a : Nat} (h : a < s.cfg.pbufWords) (v : Word) :
    memWrite s a v = .ok (storeWord s a v) := if_pos h

/-- The one writing memory operation keeps the canonical form. -/
theorem memWrite_wf {s t : State} {a : Nat} {v : Word} (hw : Memory.wf s.cfg.pbufWords s.pbuf = true)
    (h : memWrite s a v = .ok t) : Memory.wf t.cfg.pbufWords t.pbuf = true := by
  obtain ⟨ha, rfl⟩ := memWrite_eq_ok.1 h
  exact wf_store hw ha v

/-! ### Registers -/

theorem trunc32_toNat_of_lt {n : Nat} (h : n < 2 ^ 32) : (trunc32 n).toNat = n := by
  simp only [trunc32, BitVec.toNat_ofNat]; omega

@[simp] theorem trunc32_toNat (v : Word) : trunc32 v.toNat = v := by simp [trunc32]

theorem trunc32_getLsbD (n b : Nat) : (trunc32 n).getLsbD b = (decide (b < 32) && n.testBit b) := by
  simp [trunc32, BitVec.getLsbD_ofNat]

/-! ### Byte lanes -/

theorem byteLane_getLsbD (v : Word) (i j : Nat) :
    (byteLane v i).getLsbD j = (decide (j < 8) && v.getLsbD (8 * i + j)) := by
  simp [byteLane, BitVec.getLsbD_extractLsb']

theorem bswap32_getLsbD (v : Word) (b : Nat) :
    (bswap32 v).getLsbD b = (decide (b < 32) && v.getLsbD (8 * (3 - b / 8) + b % 8)) := by
  by_cases h : b < 32
  · simp only [bswap32, BitVec.getLsbD_or, BitVec.getLsbD_shiftLeft, BitVec.getLsbD_setWidth, byteLane_getLsbD, h]
    interval_cases b <;> simp
  · rw [BitVec.getLsbD_of_ge _ _ (by omega)]
    simp [h]

/-! ### The span read -/

theorem lowMask_eq (n : Nat) : lowMask n = 2 ^ n - 1 := by simp [lowMask, Nat.shiftLeft_eq]

theorem spanInWord_eq (x : Word) (off w : Nat) :
    spanInWord x off w = x.toNat / 2 ^ (32 - w - off) % 2 ^ w := by
  simp [spanInWord, lowMask_eq, Nat.and_two_pow_sub_one_eq_mod, Nat.shiftRight_eq_div_pow]

theorem spanInWord_testBit {x : Word} {off w i : Nat} (hw : off + w ≤ 32) (hi : i < w) :
    (spanInWord x off w).testBit (w - 1 - i) = x.getLsbD (31 - (off + i)) := by
  rw [spanInWord_eq, Nat.testBit_mod_two_pow, Nat.testBit_div_two_pow]
  simp only [show w - 1 - i < w by omega, decide_true, Bool.true_and, BitVec.getLsbD]
  congr 1
  omega

/-- Bit `j` of a crossing span: the low bits come from the next word, the rest from the first one. -/
theorem spanAcross_testBit_of {x y : Word} {off w : Nat} (ho : off < 32) (hc : 32 < off + w) (hw : w ≤ 32) (j : Nat) :
    (spanAcross x y off w).testBit j =
      if j < off + w - 32 then y.getLsbD (64 - off - w + j)
      else decide (j < w) && x.getLsbD (j - (off + w - 32)) := by
  simp only [spanAcross, lowMask_eq, Nat.testBit_or, Nat.testBit_shiftLeft, Nat.testBit_shiftRight, Nat.testBit_and,
    Nat.testBit_two_pow_sub_one, show w - (32 - off) = off + w - 32 by omega, BitVec.getLsbD]
  by_cases hj : j < off + w - 32
  · simp only [hj, if_true, show ¬ (j ≥ off + w - 32) by omega, decide_false, Bool.false_and, Bool.false_or,
      show 32 - (off + w - 32) = 64 - off - w by omega]
    simp [hj]
  · simp only [hj, if_false, show j ≥ off + w - 32 by omega, decide_true, Bool.true_and,
      show 32 - (off + w - 32) = 64 - off - w by omega]
    by_cases hj' : j < w
    · simp [hj, hj', show j - (off + w - 32) < 32 - off by omega]
    · simp [hj, hj', show ¬ (j - (off + w - 32) < 32 - off) by omega]

theorem spanAcross_testBit {x y : Word} {off w i : Nat} (ho : off < 32) (hc : 32 < off + w) (hw : w ≤ 32) (hi : i < w) :
    (spanAcross x y off w).testBit (w - 1 - i) =
      if off + i < 32 then x.getLsbD (31 - (off + i)) else y.getLsbD (31 - (off + i - 32)) := by
  rw [spanAcross_testBit_of ho hc hw]
  by_cases h : off + i < 32
  · rw [if_neg (by omega), if_pos h]
    simp only [show w - 1 - i < w by omega, decide_true, Bool.true_and]
    congr 1; omega
  · rw [if_pos (by omega), if_neg h]
    congr 1; omega

theorem spanInWord_lt (x : Word) (off w : Nat) : spanInWord x off w < 2 ^ w := by
  rw [spanInWord_eq]; exact Nat.mod_lt _ (Nat.two_pow_pos w)

theorem spanAcross_lt {x y : Word} {off w : Nat} (ho : off < 32) (hc : 32 < off + w) (hw : w ≤ 32) :
    spanAcross x y off w < 2 ^ w := by
  refine Nat.lt_pow_two_of_testBit _ fun j hj => ?_
  rw [spanAcross_testBit_of ho hc hw, if_neg (by omega)]
  simp [show ¬ j < w by omega]

/-- What `span` answers when it answers: one word's bits, or two adjacent words'. -/
theorem span_eq_ok {s : State} {p w v : Nat} :
    span s p w = .ok v ↔ 1 ≤ w ∧ w ≤ 32 ∧ p / 32 < s.cfg.pbufWords ∧
      (p % 32 + w ≤ 32 ∧ v = spanInWord (s.word (p / 32)) (p % 32) w ∨
        32 < p % 32 + w ∧ p / 32 + 1 < s.cfg.pbufWords ∧
          v = spanAcross (s.word (p / 32)) (s.word (p / 32 + 1)) (p % 32) w) := by
  unfold span memRead
  by_cases hw : w = 0 ∨ 32 < w
  · simp only [hw, if_true]
    constructor
    · intro h; cases h
    · rintro ⟨h1, h2, -⟩; omega
  · simp only [hw, if_false]
    by_cases h1 : p / 32 < s.cfg.pbufWords
    · simp only [h1, if_true]
      by_cases h2 : p % 32 + w ≤ 32
      · simp only [h2, if_true, show ¬ 32 < p % 32 + w by omega]
        simp only [Except.ok.injEq, true_and, false_and, or_false]
        constructor
        · intro h; exact ⟨by omega, by omega, h.symm⟩
        · rintro ⟨-, -, h⟩; exact h.symm
      · simp only [h2, if_false, show 32 < p % 32 + w by omega]
        by_cases h3 : p / 32 + 1 < s.cfg.pbufWords
        · simp only [h3, if_true, Except.ok.injEq, true_and, false_and, false_or]
          constructor
          · intro h; exact ⟨by omega, by omega, h.symm⟩
          · rintro ⟨-, -, h⟩; exact h.symm
        · simp [h3]
    · simp [h1]

/-- Inside PBUF `span` answers, and its bits are the stream bits from `p` on. -/
theorem span_spec {s : State} {p w : Nat} (h1 : 1 ≤ w) (h2 : w ≤ 32) (hb : p + w ≤ 32 * s.cfg.pbufWords) :
    ∃ v, span s p w = .ok v ∧ v < 2 ^ w ∧ ∀ i, i < w → v.testBit (w - 1 - i) = s.streamBit (p + i) := by
  by_cases hc : p % 32 + w ≤ 32
  · refine ⟨_, span_eq_ok.2 ⟨h1, h2, by omega, .inl ⟨hc, rfl⟩⟩, spanInWord_lt _ _ _, fun i hi => ?_⟩
    rw [spanInWord_testBit hc hi, State.streamBit]
    congr 2 <;> omega
  · refine ⟨_, span_eq_ok.2 ⟨h1, h2, by omega, .inr ⟨by omega, by omega, rfl⟩⟩,
      spanAcross_lt (by omega) (by omega) h2, fun i hi => ?_⟩
    rw [spanAcross_testBit (by omega) (by omega) h2 hi, State.streamBit]
    split
    · congr 2 <;> omega
    · congr 2 <;> omega

/-! ### Geometry -/

theorem bytesPerLine_eq (s : State) : s.bytesPerLine = 8 * s.charWidth := by
  simp only [State.bytesPerLine, bytesPerLineOf]; omega

theorem wordsPerLine_eq (s : State) : s.wordsPerLine = 2 * s.charWidth := by
  simp only [State.wordsPerLine, wordsPerLineOf, bytesPerLine_eq]; omega

theorem dest_lt {s : State} {k : Nat} (hk : k < s.totalWords) : dest s k < s.totalWords := by
  have hw : 0 < s.wordsPerLine := by
    rcases Nat.eq_zero_or_pos s.wordsPerLine with h | h
    · simp [State.totalWords, h] at hk
    · exact h
  have hr : k / s.wordsPerLine < s.imgHeight.toNat := by
    rw [Nat.div_lt_iff_lt_mul hw, Nat.mul_comm]; exact hk
  have hm : k % s.wordsPerLine < s.wordsPerLine := Nat.mod_lt _ hw
  have hle : s.imgHeight.toNat - 1 - k / s.wordsPerLine + 1 ≤ s.imgHeight.toNat := by
    generalize k / s.wordsPerLine = q at *
    omega
  calc dest s k < (s.imgHeight.toNat - 1 - k / s.wordsPerLine + 1) * s.wordsPerLine := by
        rw [Nat.add_mul, one_mul]; exact Nat.add_lt_add_left hm _
    _ ≤ s.imgHeight.toNat * s.wordsPerLine := Nat.mul_le_mul_right _ hle
    _ = s.totalWords := Nat.mul_comm _ _

end Sys2Proof.Machine
end

