-- ==== Sys2Proof/Laws/PerInstr.lean ====
section
/-! SUPPORT. The facts stated of every command as syntax, one lemma per constructor. -/

namespace Sys2Proof.Laws.EncodeMatchesRow

/-- The word of a well-formed command has its row's fixed bits (30_encoding.md R102 to R106). -/
def Statement (i : Instr) : Prop :=
  i.WellFormed → encode i &&& i.opcode.mask = i.opcode.matchWord

theorem nop : Statement .nop := by intro _; decide

theorem config : Statement .config := by intro _; decide

theorem load : Statement .load := by intro _; decide

theorem writeRaw (addr : Nat) : Statement (.writeRaw addr) := by
  intro h
  simp only [Instr.WellFormed, Instr.wellFormed, decide_eq_true_eq] at h
  refine (and_mask_eq_match .writeRaw _).2 ?_
  simp only [encode, commandWord_toNat (opc := 3) (f := addr) (by omega) (by omega)]
  omega

theorem readRaw (addr : Nat) : Statement (.readRaw addr) := by
  intro h
  simp only [Instr.WellFormed, Instr.wellFormed, decide_eq_true_eq] at h
  refine (and_mask_eq_match .readRaw _).2 ?_
  simp only [encode, commandWord_toNat (opc := 4) (f := addr) (by omega) (by omega)]
  omega

theorem bswap : Statement .bswap := by intro _; decide

theorem extractSpan (w : Nat) : Statement (.extractSpan w) := by
  intro h
  simp only [Instr.WellFormed, Instr.wellFormed, decide_eq_true_eq] at h
  refine (and_mask_eq_match .extractSpan _).2 ?_
  simp only [encode, commandWord_toNat (opc := 6) (f := w) (by omega) (by omega)]
  omega

theorem glyphStart (g : Nat) : Statement (.glyphStart g) := by
  intro h
  simp only [Instr.WellFormed, Instr.wellFormed, decide_eq_true_eq] at h
  refine (and_mask_eq_match .glyphStart _).2 ?_
  simp only [encode, commandWord_toNat (opc := 7) (f := g) (by omega) (by omega)]
  omega

theorem extractRow (g : Nat) : Statement (.extractRow g) := by
  intro h
  simp only [Instr.WellFormed, Instr.wellFormed, decide_eq_true_eq] at h
  refine (and_mask_eq_match .extractRow _).2 ?_
  simp only [encode, commandWord_toNat (opc := 8) (f := g) (by omega) (by omega)]
  omega

theorem clearErr : Statement .clearErr := by intro _; decide

end Sys2Proof.Laws.EncodeMatchesRow
end

