-- ==== Sys2Proof/Laws/Step.lean ====
section
/-! SUPPORT. What the decoder, one command, one transaction and one step can do: the inversion lemmas that proofs about every
command or every step cite instead of unfolding `exec` and `step`. -/

namespace Sys2Proof.Machine

/-! ### The register map -/

@[simp] theorem ofAddr_addr (r : Reg) : Reg.ofAddr r.addr = some r := by cases r <;> decide

theorem eq_addr_of_ofAddr : ∀ (a : RegAddr) (r : Reg), Reg.ofAddr a = some r → a = r.addr := by decide

theorem ofAddr_reserved : ∀ a : RegAddr, 16 ≤ a.toNat → Reg.ofAddr a = none := by decide

/-! ### Errors -/

theorem code_ne_zero (e : ErrorCode) : e.code ≠ 0 := by cases e <;> decide

theorem code_le (e : ErrorCode) : e.code.toNat ≤ 0xA := by cases e <;> decide

/-! ### One command -/

/-- A command that answers a next state raises one error, or is one of the ten and leaves its own update. -/
theorem exec_cases {i : Instr} {s t : State} (h : exec i s = .next t) :
    (∃ e : ErrorCode, t = raise e (encode i) s) ∨ (i = .nop ∧ t = s) ∨ (i = .clearErr ∧ t = clearError s) ∨
    (i = .config ∧ t = acceptGeometry s ∧ s.arg0.toNat % 64 = 0 ∧ 1 ≤ s.arg0.toNat / 64 ∧ s.arg0.toNat / 64 ≤ 32 ∧ 2 * (s.arg0.toNat/64) * s.arg1.toNat ≤ s.cfg.pbufWords) ∨
    (i = .load ∧ s.configured = true ∧ s.loadCount.toNat < s.totalWords ∧ dest s s.loadCount.toNat < s.cfg.pbufWords ∧
       t = advanceLoad s.loadCount.toNat (storeWord s (dest s s.loadCount.toNat) (bswap32 s.arg0))) ∨
    (∃ a, i = .writeRaw a ∧ a < s.cfg.pbufWords ∧ t = storeWord s a s.arg0) ∨
    (i.opcode ∈ [Opcode.readRaw, .bswap, .extractSpan, .glyphStart, .extractRow] ∧ ∃ v, t = setResult s v) := by
  cases i <;> simp only [exec] at h
  case nop => simp [execNop] at h; simp [h]
  case clearErr => simp [execClearErr] at h; simp [h]
  case bswap => simp [execBswap] at h; simp [← h, Instr.opcode]; try exact .inr ⟨_, rfl⟩
  case config =>
    simp only [execConfig, raiseIn, State.arg0Number, State.arg1Number, charWidthOf, wordsPerLineOf, bytesPerLineOf] at h
    by_cases h1 : s.arg0.toNat % 64 ≠ 0
    · rw [if_pos h1] at h; left; cases h; exact ⟨_, rfl⟩
    · rw [if_neg h1] at h
      split at h
      · left; cases h; exact ⟨_, rfl⟩
      · split at h
        · left; cases h; exact ⟨_, rfl⟩
        · right; right; right; left
          rename_i h2 h3
          cases h
          have e : s.arg0.toNat / 64 * 64 / 8 / 4 = 2 * (s.arg0.toNat / 64) := by omega
          rw [e] at h3
          exact ⟨rfl, rfl, by omega, by omega, by omega, by omega⟩
  case load =>
    simp only [execLoad, raiseIn, State.dataWord] at h
    split at h
    · left; cases h; exact ⟨_, rfl⟩
    · split at h
      · left; cases h; exact ⟨_, rfl⟩
      · simp only [finish_eq_next, map_eq_ok, memWrite_eq_ok] at h
        obtain ⟨a, ⟨h1, rfl⟩, rfl⟩ := h
        right; right; right; right; left
        rename_i h2 h3
        exact ⟨rfl, by simpa using h2, by omega, h1, rfl⟩
  case writeRaw a =>
    simp only [execWriteRaw, raiseIn, State.dataWord] at h
    split at h
    · left; cases h; exact ⟨_, rfl⟩
    · simp only [finish_eq_next, memWrite_eq_ok] at h
      right; right; right; right; right; left
      exact ⟨a, rfl, h.1, h.2.symm⟩
  all_goals
    first | simp only [execReadRaw, raiseIn] at h | simp only [execExtractSpan, raiseIn] at h | simp only [execGlyphStart, raiseIn] at h | simp only [execExtractRow, raiseIn] at h
    repeat' (split at h)
    all_goals first
      | (left; cases h; exact ⟨_, rfl⟩)
      | (right; right; right; right; right; right
         refine ⟨by simp [Instr.opcode], ?_⟩
         first
         | (cases h; exact ⟨_, rfl⟩)
         | (simp only [finish_eq_next, map_eq_ok] at h
            obtain ⟨a, _, rfl⟩ := h
            exact ⟨_, rfl⟩))

/-- The command step rejects, raises E_ILLEGAL, or runs the decoded command. -/
theorem commandStep_cases {v : Word} {s t : State} (h : commandStep v s = .next t) :
   (admitted v s = false ∧ t = s) ∨ (admitted v s = true ∧ (∃ why, decode v = .illegal why) ∧ t = raise .illegal v s) ∨
   (admitted v s = true ∧ ∃ i, decode v = .command i ∧ exec i s = .next t) := by
  unfold commandStep at h
  split at h
  · rename_i ha
    split at h
    · rename_i why hd; right; left; cases h; exact ⟨ha, ⟨_, hd⟩, rfl⟩
    · rename_i i hd; right; right; exact ⟨ha, i, hd, h⟩
  · rename_i ha; left; cases h; exact ⟨by simpa using ha, rfl⟩

/-! ### One transaction -/

theorem transfer_cmd (s : State) (v : Word) :
    transfer (.write Reg.cmd.addr v) s = commandStep v (setReply s .writeAck) := by
  simp [transfer, busWrite]

/-- A write ignores its data, stores an operand, or executes a command. -/
theorem busWrite_cases {s t : State} {a : RegAddr} {v : Word} (h : busWrite s a v = .next t) :
    t = s ∨ (a = Reg.arg0.addr ∧ t = setArg0 s v) ∨ (a = Reg.arg1.addr ∧ t = setArg1 s v) ∨
      (a = Reg.cmd.addr ∧ commandStep v s = .next t) := by
  unfold busWrite at h
  split at h
  · rename_i h'; cases h; exact .inr (.inl ⟨eq_addr_of_ofAddr _ _ h', rfl⟩)
  · rename_i h'; cases h; exact .inr (.inr (.inl ⟨eq_addr_of_ofAddr _ _ h', rfl⟩))
  · rename_i h'; exact .inr (.inr (.inr ⟨eq_addr_of_ofAddr _ _ h', h⟩))
  all_goals (cases h; exact .inl rfl)

theorem transfer_cases {s t : State} {x : Transaction} (h : transfer x s = .next t) :
   (∃ a, x = .read a ∧ t = setReply s (.readAck (busRead s a))) ∨
   (∃ a v, x = .write a v ∧ busWrite (setReply s .writeAck) a v = .next t) := by
  cases x with
  | read a => left; exact ⟨a, rfl, by cases h; rfl⟩
  | write a v => right; exact ⟨a, v, rfl, h⟩

/-! ### One step -/

theorem step_transfer {s : State} {x : Transaction} {rest : List BusEvent} (h : s.inbox = .transfer x :: rest)
    (hr : s.resetDone = true) : step s = transfer x (setInbox s rest) := by
  simp [step, runNext, h, perform, hr]

/-- A step idles, resets, completes one transaction, or resets while cutting one. -/
theorem step_cases {s t : State} (h : step s = .next t) :
   (s.inbox = [] ∧ t = setReply s .idle) ∨
   (∃ rest, s.inbox = .reset :: rest ∧ t = applyReset (setInbox s rest)) ∨
   (∃ x rest, s.inbox = .transfer x :: rest ∧ s.resetDone = true ∧ transfer x (setInbox s rest) = .next t) ∨
   (∃ x rest after, s.inbox = .resetDuring x :: rest ∧ s.resetDone = true ∧ (transfer x (setInbox s rest) = .next after ∨ after = setInbox s rest) ∧ t = cutByReset (setInbox s rest) after) := by
  unfold step runNext at h
  split at h
  · rename_i hi; left; cases h; exact ⟨hi, rfl⟩
  · rename_i e rest hi
    right
    cases e with
    | reset => left; cases h; exact ⟨rest, hi, rfl⟩
    | transfer x =>
      right; left
      simp only [perform] at h
      split at h
      · rename_i hr; exact ⟨x, rest, hi, hr, h⟩
      · cases h
    | resetDuring x =>
      right; right
      simp only [perform] at h
      split at h
      · rename_i hr
        split at h
        · rename_i after ha; cases h; exact ⟨x, rest, after, hi, hr, .inl ha, rfl⟩
        · cases h; exact ⟨x, rest, _, hi, hr, .inr rfl, rfl⟩
        · cases h; exact ⟨x, rest, _, hi, hr, .inr rfl, rfl⟩
      · cases h

end Sys2Proof.Machine
end

