-- ==== Sys2Proof/Laws/Queue.lean ====
section
/-! SUPPORT. No command, transaction or reset looks at the host's queue, so it can be replaced before or after; and what one
clock edge does to the block. -/

namespace Sys2Proof.Machine

/-- The outcome with the queue of its state replaced. -/
def withQueue (q : List BusEvent) (o : Host.Outcome State Fault Refusal) : Host.Outcome State Fault Refusal :=
  match o with
  | .next s => .next (setInbox s q)
  | .fault f => .fault f
  | .refused r => .refused r

theorem ite_withQueue {q : List BusEvent} {c : Prop} {d : Decidable c} {A B A' B' : Host.Outcome State Fault Refusal}
    (h1 : A' = withQueue q A) (h2 : B' = withQueue q B) : (@ite _ c d A' B') = withQueue q (@ite _ c d A B) := by
  split <;> assumption

theorem memWrite_setInbox (s : State) (q : List BusEvent) (a : Nat) (v : Word) :
    memWrite (setInbox s q) a v = (memWrite s a v).map fun t => setInbox t q := by
  by_cases h : a < s.cfg.pbufWords
  · rw [memWrite_of_lt h, memWrite_of_lt (s := setInbox s q) h]; rfl
  · have e1 : memWrite s a v = .error .pbufIndexOutOfRange := if_neg h
    have e2 : memWrite (setInbox s q) a v = .error .pbufIndexOutOfRange := if_neg h
    rw [e1, e2]; rfl

theorem exec_setInbox (i : Instr) (s : State) (q : List BusEvent) :
    exec i (setInbox s q) = withQueue q (exec i s) := by
  cases i <;> simp only [exec]
  case nop => rfl
  case bswap => rfl
  case clearErr => rfl
  case config => exact ite_withQueue (d := instDecidableNot) rfl (ite_withQueue rfl (ite_withQueue rfl rfl))
  case load =>
    refine ite_withQueue rfl (ite_withQueue rfl ?_)
    show finish ((memWrite (setInbox s q) (dest s s.loadCount.toNat) (bswap32 s.arg0)).map _) =
      withQueue q (finish ((memWrite s (dest s s.loadCount.toNat) (bswap32 s.arg0)).map _))
    rw [memWrite_setInbox]
    cases memWrite s (dest s s.loadCount.toNat) (bswap32 s.arg0) <;> rfl
  case writeRaw a =>
    refine ite_withQueue rfl ?_
    show finish (memWrite (setInbox s q) a s.arg0) = withQueue q (finish (memWrite s a s.arg0))
    rw [memWrite_setInbox]
    cases memWrite s a s.arg0 <;> rfl
  case readRaw a =>
    refine ite_withQueue rfl ?_
    show finish ((memRead s a).map _) = withQueue q (finish ((memRead s a).map _))
    cases memRead s a <;> rfl
  case extractSpan w =>
    refine ite_withQueue rfl (ite_withQueue rfl ?_)
    show finish ((span s s.arg0.toNat w).map _) = withQueue q (finish ((span s s.arg0.toNat w).map _))
    cases span s s.arg0.toNat w <;> rfl
  case glyphStart g => exact ite_withQueue rfl (ite_withQueue rfl rfl)
  case extractRow g =>
    refine ite_withQueue rfl (ite_withQueue (d := instDecidableNot) rfl (ite_withQueue rfl (ite_withQueue rfl
      (ite_withQueue rfl ?_))))
    show finish ((span s (rowBit s g s.arg0.toNat) s.charWidth).map _) =
      withQueue q (finish ((span s (rowBit s g s.arg0.toNat) s.charWidth).map _))
    cases span s (rowBit s g s.arg0.toNat) s.charWidth <;> rfl

theorem commandStep_setInbox (v : Word) (s : State) (q : List BusEvent) :
    commandStep v (setInbox s q) = withQueue q (commandStep v s) := by
  refine ite_withQueue ?_ rfl
  cases decode v with
  | command i => exact exec_setInbox i s q
  | illegal why => rfl

theorem transfer_setInbox (x : Transaction) (s : State) (q : List BusEvent) :
    transfer x (setInbox s q) = withQueue q (transfer x s) := by
  cases x with
  | read a => rfl
  | write a v =>
    simp only [transfer, busWrite]
    split <;> first | rfl | exact commandStep_setInbox v (setReply s .writeAck) q

theorem perform_setInbox (e : BusEvent) (s : State) (q : List BusEvent) :
    perform e (setInbox s q) = withQueue q (perform e s) := by
  cases e with
  | reset => rfl
  | transfer x => exact ite_withQueue (transfer_setInbox x s q) rfl
  | resetDuring x =>
    refine ite_withQueue ?_ rfl
    rw [transfer_setInbox]
    cases transfer x s <;> rfl

theorem start_block {extra : Nat} {p : Pins} {c d : Signals} (h : Signals.start extra p c = .next d) :
    d.block = c.block := by
  unfold Signals.start at h
  split at h
  · split at h
    · cases h; rfl
    · cases h
  · cases h; rfl

theorem complete_block {e : BusEvent} {ph : Phase} {c d : Signals} (h : Signals.complete e ph c = .next d) :
    perform e c.block = .next d.block := by
  unfold Signals.complete at h
  split at h
  · rename_i b hb; cases h; exact hb
  · cases h
  · cases h

/-- One edge does to the block what its transaction-level event does, and nothing when it has none. -/
theorem edge_block {extra : Nat} {p : Pins} {c d : Signals} (h : Signals.edge extra p c = .next d) :
    match Signals.event c p with
    | none => d.block = c.block
    | some e => perform e c.block = .next d.block := by
  obtain ⟨b, ph⟩ := c
  unfold Signals.edge at h
  unfold Signals.event
  cases hr : p.rstN
  · simp only [hr, Bool.false_eq_true, if_false] at h ⊢
    cases ph <;> exact complete_block h
  · simp only [hr, if_true] at h ⊢
    cases ph with
    | idle => exact start_block h
    | acking => exact start_block h
    | busy l n =>
      simp only at h
      split at h
      · cases n with
        | zero => exact complete_block h
        | succ n => cases h; rfl
      · cases h

end Sys2Proof.Machine
end

