-- ==== Sys2Proof/Tests/Slice0.lean ====
section
/-! SUPPORT. Tests from the spec's own vectors (95_test_vectors.md; 30_encoding.md R106), and for each obligation with
hypotheses a named witness that meets them. -/

namespace Sys2Proof.Tests

open Sys2Proof Sys2Proof.Machine

/-! ### Helpers -/

/-- What `f` reads in the next state, if there is one. -/
def after {α : Type} (f : State → α) (o : Host.Outcome State Fault Refusal) : Option α :=
  match o with
  | .next s => some (f s)
  | .fault _ | .refused _ => none

/-- The reset state with the operand registers written. -/
def withArgs (a0 a1 : Word) : State := { State.reset with arg0 := a0, arg1 := a1 }

/-- The reset state with an accepted geometry, `n` words loaded, the memory `m` and `a0` in ARG0. -/
def image (w h n a0 : Word) (m : Memory) : State :=
  { State.reset with imgWidth := w, imgHeight := h, configured := true, loadCount := n, arg0 := a0, pbuf := m }

/-- The end state of program P4: 64 x 2, loaded (95_test_vectors.md P4). -/
def p4 (a0 : Word) : State :=
  image 64 2 4 a0 [(0, 0xCCBBAA99), (1, 0x00FFEEDD), (2, 0x44332211), (3, 0x88776655)]

/-- The image of program P2: 192 x 2, loaded (95_test_vectors.md P2). -/
def p2 : State :=
  image 192 2 12 0 [(0, 3), (1, 0x80000000), (2, 0), (3, 0), (4, 0), (5, 0), (6, 2), (7, 0x80000000), (8, 0), (9, 0),
    (10, 0), (11, 0)]

/-- A state with an error recorded (95_test_vectors.md L2.2). -/
def failed : State := { withArgs 0x12345678 0 with err := 0x2, errCmd := 0x80000005 }

/-- `s` with one event to come. -/
def queued (e : BusEvent) (s : State) : State := setInbox s [e]

/-- `s` with one CMD write to come. -/
def queuedCmd (v : Word) (s : State) : State := queued (.transfer (.write Reg.cmd.addr v)) s

/-! ### WellFormed refuses what no encoding holds (30_encoding.md R103 to R105) -/

theorem test_wellFormed_refuses :
    (Instr.writeRaw 16777216).wellFormed = false ∧ (Instr.readRaw 16777216).wellFormed = false ∧
    (Instr.extractSpan 64).wellFormed = false ∧ (Instr.glyphStart 256).wellFormed = false ∧
    (Instr.extractRow 256).wellFormed = false := by decide

theorem test_wellFormed_accepts :
    (Instr.writeRaw 16777215).wellFormed = true ∧ (Instr.readRaw 16777215).wellFormed = true ∧
    (Instr.extractSpan 63).wellFormed = true ∧ (Instr.glyphStart 255).wellFormed = true ∧
    (Instr.extractRow 255).wellFormed = true := by decide

/-! ### Decoding of words written out from the bit patterns of 30_encoding.md R106 -/

theorem test_decode_nop : decode 0b00000000000000000000000000000000 = .command .nop := by decide
theorem test_decode_config : decode 0b00010000000000000000000000000000 = .command .config := by decide
theorem test_decode_load : decode 0b00100000000000000000000000000000 = .command .load := by decide
theorem test_decode_writeRaw : decode 0b00110000100000000000000000000110 = .command (.writeRaw 8388614) := by decide
theorem test_decode_readRaw : decode 0b01000000000000000000111111111111 = .command (.readRaw 4095) := by decide
theorem test_decode_bswap : decode 0b01010000000000000000000000000000 = .command .bswap := by decide
theorem test_decode_extractSpan : decode 0b01100000000000000000000000100001 = .command (.extractSpan 33) := by decide
theorem test_decode_glyphStart : decode 0b01110000000000000000000001001010 = .command (.glyphStart 74) := by decide
theorem test_decode_extractRow : decode 0b10000000000000000000000010000000 = .command (.extractRow 128) := by decide
theorem test_decode_clearErr : decode 0b10010000000000000000000000000000 = .command .clearErr := by decide

/-- 95_test_vectors.md L2.1. -/
theorem test_decode_illegal :
    decode 0x00000001 = .illegal (.reservedBits 0) ∧ decode 0x0F000000 = .illegal (.reservedBits 0) ∧
    decode 0x10000001 = .illegal (.reservedBits 1) ∧ decode 0x31000000 = .illegal (.reservedBits 3) ∧
    decode 0x60000040 = .illegal (.reservedBits 6) ∧ decode 0x70000100 = .illegal (.reservedBits 7) ∧
    decode 0x90000001 = .illegal (.reservedBits 9) ∧ decode 0xA0000000 = .illegal (.reservedOpcode 10) ∧
    decode 0xF0000000 = .illegal (.reservedOpcode 15) ∧ decode 0xFFFFFFFF = .illegal (.reservedOpcode 15) := by decide

theorem test_decodeTableWord :
    decodeTableWord 32 0x8000007F = some (.extractRow 127) ∧ decodeTableWord 32 0x80000100 = none := by decide

/-! ### One step of each command -/

theorem test_nop : after id (exec .nop failed) = some failed := by decide

/-- 95_test_vectors.md L2.3: 512 x 32. -/
theorem test_config_accepts :
    after (fun t => (t.charWidth, t.charHeight, t.bytesPerLine, t.wordsPerLine, t.totalWords, t.status))
      (exec .config (withArgs 512 32)) = some (8, 16, 64, 16, 512, 0x00000100) := by decide

/-- 95_test_vectors.md L2.3: the failing rows, and height 0. -/
theorem test_config_checks :
    after State.status (exec .config (withArgs 100 2)) = some 3 ∧
    after State.status (exec .config (withArgs 0 2)) = some 4 ∧
    after State.status (exec .config (withArgs 0xFFFFFFC0 2)) = some 4 ∧
    after State.status (exec .config (withArgs 2048 65)) = some 5 ∧
    after State.status (exec .config (withArgs 64 0)) = some 0x300 := by decide

/-- 95_test_vectors.md L2.4. -/
theorem test_clearErr : after (fun t => (t.err, t.errCmd)) (exec .clearErr failed) = some (0, 0x80000005) := by decide

/-- 95_test_vectors.md L2.5. -/
theorem test_bswap : after State.result (exec .bswap (withArgs 0x12345678 0)) = some 0x78563412 := by decide

/-- 95_test_vectors.md L2.5: bits move with their byte. -/
theorem test_bswap_bit31 : after State.result (exec .bswap (withArgs 0x80000000 0)) = some 0x00000080 := by decide

/-- 95_test_vectors.md L2.6: stream word 1 of a 64 x 2 image. -/
theorem test_load :
    after (fun t => (t.pbuf, t.loadCount)) (exec .load (image 64 2 1 0x04030201 [(2, 0xFF000000)])) =
      some ([(2, 0xFF000000), (3, 0x01020304)], 2) := by decide

/-- 95_test_vectors.md L2.6: the last word makes the image loaded; one more overruns. -/
theorem test_load_end :
    after State.status (exec .load (image 64 2 3 0x80000000 [])) = some 0x300 ∧
    after State.status (exec .load (p4 0)) = some 0x307 ∧ after State.status (exec .load State.reset) = some 2 := by decide

/-- 95_test_vectors.md L2.7. -/
theorem test_writeRaw : after State.pbuf (exec (.writeRaw 4095) (withArgs 0x12345678 0)) = some [(4095, 0x12345678)] := by
  decide

/-- 95_test_vectors.md L2.7. -/
theorem test_writeRaw_bounds :
    after (fun t => (t.pbuf, t.status)) (exec (.writeRaw 4096) (p4 1)) = some ((p4 1).pbuf, 0x30A) := by decide

/-- 95_test_vectors.md P4, line 8. -/
theorem test_readRaw : after State.result (exec (.readRaw 2) (p4 0)) = some 0x44332211 := by decide

/-- 95_test_vectors.md L2.7. -/
theorem test_readRaw_bounds :
    after (fun t => (t.result, t.err)) (exec (.readRaw 16777215) (p4 0)) = some (0, 0xA) := by decide

/-- 95_test_vectors.md L2.8: crossing and non-crossing spans. -/
theorem test_extractSpan :
    [(0, 32), (32, 32), (1, 32), (4, 8), (24, 8), (28, 8), (20, 16), (30, 3), (31, 2), (63, 1)].map (fun x : Word × Nat =>
        after State.result (exec (.extractSpan x.2) { withArgs x.1 0 with pbuf := [(0, 0x12345678), (1, 0x9ABCDEF0)] })) =
      [some 0x12345678, some 0x9ABCDEF0, some 0x2468ACF1, some 0x23, some 0x78, some 0x89, some 0x6789, some 1, some 1,
        some 0] := by decide

/-- 95_test_vectors.md L2.8: the checks and their order. -/
theorem test_extractSpan_checks :
    after State.err (exec (.extractSpan 0) (withArgs 0xFFFFFFFF 0)) = some 4 ∧
    after State.err (exec (.extractSpan 33) (withArgs 0 0)) = some 4 ∧
    after State.err (exec (.extractSpan 8) (withArgs 131068 0)) = some 0xA ∧
    after State.err (exec (.extractSpan 1) (withArgs 131072 0)) = some 0xA := by decide

/-- 95_test_vectors.md L2.9: 512 x 32. -/
theorem test_glyphStart :
    [0, 1, 63, 64, 65, 127].map (fun g => after State.result (exec (.glyphStart g) (image 512 32 0 0 []))) =
      [some 0, some 8, some 504, some 8192, some 8200, some 8696] := by decide

/-- 95_test_vectors.md L2.9 and L2.1. -/
theorem test_glyphStart_checks :
    after State.err (exec (.glyphStart 128) (image 512 32 0 0 [])) = some 8 ∧
    after State.err (exec (.glyphStart 128) State.reset) = some 2 := by decide

/-- 95_test_vectors.md L2.10: 64 x 2 and the crossing glyphs of 192 x 2. -/
theorem test_extractRow :
    [0, 1, 7, 31, 32, 63, 64, 95, 127].map (fun g => after State.result (exec (.extractRow g) (p4 0))) =
      [some 1, some 1, some 0, some 1, some 0, some 1, some 0, some 1, some 1] ∧
    [0, 10, 74].map (fun g => after State.result (exec (.extractRow g) p2)) = [some 0, some 7, some 5] := by decide

/-- 95_test_vectors.md L2.10: the checks and their order. -/
theorem test_extractRow_checks :
    after State.err (exec (.extractRow 200) State.reset) = some 2 ∧
    after State.err (exec (.extractRow 200) (image 64 2 1 9 [])) = some 6 ∧
    after State.err (exec (.extractRow 128) (p4 9)) = some 8 ∧
    after State.err (exec (.extractRow 0) (p4 1)) = some 9 := by decide

/-! ### The command step, the bus, reset -/

/-- 95_test_vectors.md L2.2: the sticky gate. -/
theorem test_gate :
    after id (commandStep 0x50000000 failed) = some failed ∧ after id (commandStep 0xA0000000 failed) = some failed ∧
    after id (commandStep 0x90000001 failed) = some failed ∧
    after id (commandStep 0x90000000 failed) = some { failed with err := 0 } := by decide

/-- 95_test_vectors.md P3, line 17. -/
theorem test_illegal :
    after (fun t => (t.status, t.errCmd)) (commandStep 0xA0000000 (image 64 2 1 0 [])) = some (0x101, 0xA0000000) := by
  decide

/-- 95_test_vectors.md L2.12. -/
theorem test_bus_reads :
    after State.reply (step (queued (.transfer (.read 0)) State.reset)) = some (.readAck 0x46544231) ∧
    after State.reply (step (queued (.transfer (.read 1)) State.reset)) = some (.readAck 4096) ∧
    after State.reply (step (queued (.transfer (.read 0x10)) (p4 0))) = some (.readAck 0) ∧
    after State.reply (step (queued (.transfer (.read 0x3F)) (p4 0))) = some (.readAck 0) := by decide

/-- 95_test_vectors.md L2.12. -/
theorem test_bus_writes :
    after id (step (queued (.transfer (.write 2 0xFFFFFFFF)) failed)) = some { failed with reply := .writeAck } ∧
    after id (step (queued (.transfer (.write 7 5)) failed)) = some { failed with reply := .writeAck } ∧
    after id (step (queued (.transfer (.write 0x20 1)) failed)) = some { failed with reply := .writeAck } ∧
    after State.arg0 (step (queued (.transfer (.write 4 0xDEADBEEF)) failed)) = some 0xDEADBEEF := by decide

/-- 95_test_vectors.md L2.11 and P5. -/
theorem test_reset :
    after id (step (queued .reset p2)) = some { State.reset with pbuf := p2.pbuf } := by decide

theorem test_fetchWord :
    after State.result (step ((withArgs 0x12345678 0).withFetchWord 32 0x50000000)) = some 0x78563412 := by decide

/-! ### Script text (30_encoding.md R115, R116) -/

theorem test_script_lines :
    scriptEvents ['W', 'R', ' ', 'A', 'R', 'G', '0', ',', ' ', '0', 'x', 'F', 'F', '_', '0', '0'] =
      some [.transfer (.write 4 0xFF00)] ∧
    scriptEvents ['C', 'H', 'E', 'C', 'K', ' ', ';', ' ', '=', ' ', '0'] = some [.transfer (.read 2)] ∧
    scriptEvents ['E', 'X', 'T', 'R', 'A', 'C', 'T', '_', 'S', 'P', 'A', 'N', ' ', '8'] =
      some [.transfer (.write 6 0x60000008)] ∧
    scriptEvents ['C', 'O', 'N', 'F', 'I', 'G', '.', 'I', ' ', '6', '4', ',', ' ', '2'] =
      some [.transfer (.write 4 64), .transfer (.write 5 2), .transfer (.write 6 0x10000000)] ∧
    scriptEvents ['E', 'X', 'T', 'R', 'A', 'C', 'T', '_', 'S', 'P', 'A', 'N', ' ', '6', '4'] = none := by decide

/-! ### Witnesses: encoding and the command step -/

theorem witness_DecodeOfEncode :
    Instr.nop.WellFormed ∧ (Instr.writeRaw 16777215).WellFormed ∧ (Instr.readRaw 0).WellFormed ∧
    (Instr.extractSpan 63).WellFormed ∧ (Instr.glyphStart 255).WellFormed ∧ (Instr.extractRow 255).WellFormed := by decide

theorem witness_EncodeOfDecode : decode 0x6000003F = .command (.extractSpan 63) := by decide

theorem witness_IllegalWords :
    State.reset.err = 0 ∧ (∃ why, decode 0x9FFFFFFF = .illegal why) ∧ (∃ why, decode 0xA0000000 = .illegal why) ∧
    (∃ why, decode 0x4F000000 = .illegal why) ∧ (∃ why, decode 0x6FFFFFC0 = .illegal why) ∧
    ∃ why, decode 0x80000100 = .illegal why :=
  ⟨rfl, ⟨_, rfl⟩, ⟨_, rfl⟩, ⟨_, rfl⟩, ⟨_, rfl⟩, _, rfl⟩

theorem witness_StepRunsTheDecodedCommand :
    (let s := queuedCmd 0x50000000 State.reset
     s.resetDone = true ∧ s.inbox = .transfer (.write Reg.cmd.addr 0x50000000) :: [] ∧ s.err = 0 ∧
       decode 0x50000000 = .command .bswap) ∧
    (let s := queuedCmd 0x90000000 failed
     s.resetDone = true ∧ s.inbox = .transfer (.write Reg.cmd.addr 0x90000000) :: [] ∧ s.err ≠ 0 ∧
       decode 0x90000000 = .command .clearErr) := by decide

theorem witness_StepRunsTheFetchWord :
    State.reset.resetDone = true ∧ State.reset.err = 0 ∧ (Instr.extractRow 255).WellFormed := by decide

theorem witness_StickyErrorGate :
    failed.resetDone = true ∧ failed.err ≠ 0 ∧
    (0x90000001 : Word) ≠ 0x90000000 ∧ (queuedCmd 0x90000001 failed).inbox = [.transfer (.write Reg.cmd.addr 0x90000001)] ∧
    (queuedCmd 0x90000000 failed).inbox = [.transfer (.write Reg.cmd.addr 0x90000000)] ∧
    (queued (.transfer (.write Reg.arg0.addr 1)) failed).inbox = [.transfer (.write Reg.arg0.addr 1)] ∧
    (queued (.transfer (.write Reg.arg1.addr 1)) failed).inbox = [.transfer (.write Reg.arg1.addr 1)] ∧
    (queued (.transfer (.read 0x3F)) failed).inbox = [.transfer (.read 0x3F)] := by decide

theorem witness_PreciseErrors :
    State.reset.err = 0 ∧ (∃ t, commandStep 0x20000000 State.reset = .next t ∧ t.err ≠ 0) ∧
    (∃ t, commandStep 0xA0000000 State.reset = .next t ∧ t.err ≠ 0) ∧
    failed.err ≠ 0 ∧ (∃ t, commandStep 0xA0000000 failed = .next t) ∧ ∃ t, commandStep 0x90000000 failed = .next t :=
  ⟨rfl, ⟨_, rfl, by decide⟩, ⟨_, rfl, by decide⟩, by decide, ⟨_, rfl⟩, _, rfl⟩

theorem witness_ErrorsOfEachCommand :
    (∃ t, exec .config (withArgs 100 2) = .next t ∧ t.err ≠ 0) ∧ (∃ t, exec .load (p4 0) = .next t ∧ t.err ≠ 0) ∧
    (∃ t, exec (.writeRaw 4096) State.reset = .next t ∧ t.err ≠ 0) ∧
    (∃ t, exec (.readRaw 4096) State.reset = .next t ∧ t.err ≠ 0) ∧
    (∃ t, exec (.extractSpan 0) State.reset = .next t ∧ t.err ≠ 0) ∧
    (∃ t, exec (.glyphStart 0) State.reset = .next t ∧ t.err ≠ 0) ∧
    ∃ t, exec (.extractRow 0) (p4 1) = .next t ∧ t.err ≠ 0 :=
  ⟨⟨_, rfl, by decide⟩, ⟨_, rfl, by decide⟩, ⟨_, rfl, by decide⟩, ⟨_, rfl, by decide⟩, ⟨_, rfl, by decide⟩,
    ⟨_, rfl, by decide⟩, _, rfl, by decide⟩

theorem witness_OnlyClearErrOrResetLeavesAnError :
    failed.err ≠ 0 ∧ (∃ t, step (queuedCmd 0x90000000 failed) = .next t ∧ t.err ≠ failed.err) ∧
    (∃ t, step (queued .reset failed) = .next t ∧ t.err ≠ failed.err) ∧
    ∃ t, step (queued (.resetDuring (.read 0)) failed) = .next t ∧ t.err ≠ failed.err :=
  ⟨by decide, ⟨_, rfl, by decide⟩, ⟨_, rfl, by decide⟩, _, rfl, by decide⟩

/-! ### Witnesses: the bus and reset -/

theorem witness_WriteTransactions :
    State.reset.resetDone = true ∧
    (queued (.transfer (.write 4 1)) State.reset).inbox = [.transfer (.write (0x10 / 4) 1)] ∧
    (queued (.transfer (.write 5 1)) State.reset).inbox = [.transfer (.write (0x14 / 4) 1)] ∧
    (queued (.transfer (.write 6 1)) State.reset).inbox = [.transfer (.write (0x18 / 4) 1)] ∧
    (queued (.transfer (.write 3 1)) State.reset).inbox = [.transfer (.write 3 1)] ∧
    (queued (.transfer (.write 7 1)) State.reset).inbox = [.transfer (.write 7 1)] ∧
    (3 : RegAddr) ≠ 0x10 / 4 ∧ (3 : RegAddr) ≠ 0x14 / 4 ∧ (3 : RegAddr) ≠ 0x18 / 4 ∧
    (7 : RegAddr) ≠ 0x10 / 4 ∧ (7 : RegAddr) ≠ 0x14 / 4 ∧ (7 : RegAddr) ≠ 0x18 / 4 := by decide

theorem witness_ReadTransactions :
    State.reset.resetDone = true ∧ (queued (.transfer (.read 15)) State.reset).inbox = [.transfer (.read 15)] ∧
    (queued (.transfer (.read 16)) State.reset).inbox = [.transfer (.read 16)] ∧ 16 ≤ (16 : RegAddr).toNat ∧
    (15 : RegAddr) = Reg.loadCount.addr ∧ (queued (.transfer (.read 6)) State.reset).inbox = [.transfer (.read (0x18 / 4))] ∧
    Signals.rdata { block := setReply (p4 0) (.readAck 7), phase := .acking } = some 7 := by decide

theorem witness_RegisterMapReads :
    (image 2048 64 4096 0 []).geometryWf ∧ State.reset.geometryWf ∧ 0x40 / 4 ≤ (16 : RegAddr).toNat ∧
    0x40 / 4 ≤ (63 : RegAddr).toNat := by decide

theorem witness_IgnoredAccesses :
    Reg.errCmd ≠ .arg0 ∧ Reg.errCmd ≠ .arg1 ∧ Reg.errCmd ≠ .cmd ∧ Reg.result ≠ .arg0 ∧ Reg.result ≠ .arg1 ∧
    Reg.result ≠ .cmd ∧ 16 ≤ (16 : RegAddr).toNat ∧ 16 ≤ (63 : RegAddr).toNat := by decide

theorem witness_IgnoredAccesses_transfer :
    (∀ v, Transaction.write 5 1 ≠ .write Reg.cmd.addr v) ∧ ∃ t, transfer (.write 5 1) failed = .next t :=
  ⟨fun v h => by injection h with h _; exact absurd h (by decide), _, rfl⟩

theorem witness_IdleStepHoldsState : (p4 0).inbox = [] := by decide

theorem witness_ResetEvent :
    (queued .reset p2).inbox = .reset :: [] ∧ Reg.totalWords ≠ .id ∧ Reg.totalWords ≠ .capacity := by decide

theorem witness_ResetCutsTransaction :
    (p4 0).resetDone = true ∧
    (queued (.resetDuring (.write Reg.cmd.addr 0x30000007)) (p4 0)).inbox =
      .resetDuring (.write Reg.cmd.addr 0x30000007) :: [] ∧
    (queued (.resetDuring (.read 2)) (p4 0)).inbox = .resetDuring (.read 2) :: [] ∧
    ∀ v, Transaction.read 2 ≠ .write Reg.cmd.addr v :=
  ⟨rfl, rfl, rfl, fun _ h => by cases h⟩

theorem witness_TransactionBeforeResetRefused :
    (powerUp Config.reference [.transfer (.read 0)]).resetDone = false ∧
    (powerUp Config.reference [.transfer (.read 0)]).inbox = .transfer (.read 0) :: [] ∧
    (powerUp Config.reference [.resetDuring (.read 0)]).inbox = .resetDuring (.read 0) :: [] :=
  ⟨rfl, rfl, rfl⟩

/-! ### Witnesses: the commands -/

theorem witness_NopChangesNothing :
    (0x0FFFFFFF : Word).toNat / 2 ^ 28 = 0 ∧ (0x0FFFFFFF : Word) ≠ 0 ∧ State.reset.err = 0 := by decide

theorem witness_ClearErrClearsErrAlone :
    (0x90000001 : Word).toNat / 2 ^ 28 = 9 ∧ (0x90000001 : Word) ≠ 0x90000000 ∧ failed.err ≠ 0 ∧ State.reset.err = 0 := by
  decide

theorem witness_ConfigByOperands :
    (let s := withArgs 65 2; s.arg0.toNat % 64 ≠ 0) ∧
    (let s := withArgs 0 2; s.arg0.toNat % 64 = 0 ∧ (s.arg0.toNat = 0 ∨ 2112 ≤ s.arg0.toNat)) ∧
    (let s := withArgs 2112 2; s.arg0.toNat % 64 = 0 ∧ (s.arg0.toNat = 0 ∨ 2112 ≤ s.arg0.toNat)) ∧
    (let s := withArgs 64 2049; s.arg0.toNat % 64 = 0 ∧ 64 ≤ s.arg0.toNat ∧ s.arg0.toNat ≤ 2048 ∧
      s.cfg.pbufWords < s.arg0.toNat / 32 * s.arg1.toNat) ∧
    (let s := withArgs 64 2048; s.arg0.toNat % 64 = 0 ∧ 64 ≤ s.arg0.toNat ∧ s.arg0.toNat ≤ 2048 ∧
      s.arg0.toNat / 32 * s.arg1.toNat ≤ s.cfg.pbufWords) ∧
    (let s := withArgs 2048 64; s.arg0.toNat % 64 = 0 ∧ 64 ≤ s.arg0.toNat ∧ s.arg0.toNat ≤ 2048 ∧
      s.arg0.toNat / 32 * s.arg1.toNat ≤ s.cfg.pbufWords) := by decide

theorem witness_RoundTripGeometry :
    (let s := p4 0
     s.geometryWf ∧ s.configured = true ∧ s.imgWidth.toNat = 64 * 1 ∧ s.imgHeight.toNat = 2 * 1 ∧ s.loaded = true ∧
       s.err = 0 ∧ (127 < 128 ∧ s.arg0.toNat < 1) ∧ ¬ (128 < 128 ∧ s.arg0.toNat < 1)) ∧
    (let s := p4 1; ¬ (127 < 128 ∧ s.arg0.toNat < 1)) := by decide

theorem witness_LaneSwapMovesBytes : 3 < 4 ∧ 7 < 8 := by decide

theorem witness_RowReorderLaws : 0 < (p4 0).totalWords ∧ 3 < (p4 0).totalWords := by decide

theorem witness_LoadByState :
    State.reset.configured = false ∧
    (let s := p4 0; s.configured = true ∧ s.totalWords ≤ s.loadCount.toNat) ∧
    (let s := image 64 2 0 1 []
     s.configured = true ∧ s.loadCount.toNat < s.totalWords ∧ s.totalWords ≤ s.cfg.pbufWords) ∧
    (let s := image 64 2 3 1 []
     s.configured = true ∧ s.loadCount.toNat < s.totalWords ∧ s.totalWords ≤ s.cfg.pbufWords) := by decide

theorem witness_WriteRawByAddress : 4095 < State.reset.cfg.pbufWords ∧ State.reset.cfg.pbufWords ≤ 4096 := by decide

theorem witness_ReadRawByAddress :
    4095 < State.reset.cfg.pbufWords ∧ State.reset.cfg.pbufWords ≤ 4096 := by decide

theorem witness_UnwrittenWordReadsAsFreeValue :
    4 < (p4 0).cfg.pbufWords ∧ (p4 0).written 4 = false ∧ 4095 < (p4 0).cfg.pbufWords ∧ (p4 0).written 4095 = false := by
  decide

theorem witness_ReadRawAfterWriteRaw : 4095 < State.reset.cfg.pbufWords ∧ 0 < State.reset.cfg.pbufWords := by decide

theorem witness_LoadCompleteness :
    let s := image 64 2 0 0 []
    s.Sound ∧ s.resetDone = true ∧ s.configured = true ∧ s.loadCount = 0 ∧ s.err = 0 ∧
      [0x11223344, 0x55667788, 0x99AABBCC, (0xDDEEFF00 : Word)].length = s.totalWords := by decide

theorem witness_SpanReadsTheBitstream :
    (1 ≤ 32 ∧ 32 ≤ 32 ∧ 131040 + 32 ≤ 32 * State.reset.cfg.pbufWords ∧ 131040 % 32 + 32 ≤ 32) ∧
    (1 ≤ 2 ∧ 2 ≤ 32 ∧ 31 + 2 ≤ 32 * State.reset.cfg.pbufWords ∧ 32 < 31 % 32 + 2) := by decide

/-- Two states that agree on the words a span of 3 bits at 30 reads and differ at the next word. -/
theorem witness_SpanReadsItsWordsAlone :
    (let s := { State.reset with pbuf := [(0, 1), (1, 2), (2, 3)] }
     let s' := { State.reset with pbuf := [(0, 1), (1, 2), (2, 4)] }
     s.cfg = s'.cfg ∧ s.word (30 / 32) = s'.word (30 / 32) ∧ s.word (30 / 32 + 1) = s'.word (30 / 32 + 1) ∧
       32 < 30 % 32 + 3) ∧
    (let s := { State.reset with pbuf := [(0, 1), (1, 2)] }
     let s' := { State.reset with pbuf := [(0, 1), (1, 9)] }
     s.word (29 / 32) = s'.word (29 / 32) ∧ ¬ 32 < 29 % 32 + 3) := by decide

theorem witness_ExtractSpanByOperands :
    (0 = 0 ∨ 33 ≤ 0) ∧ (33 = 0 ∨ 33 ≤ 33) ∧
    (32 * State.reset.cfg.pbufWords < (withArgs 131065 0).arg0.toNat + 8) ∧
    ((withArgs 131064 0).arg0.toNat + 8 ≤ 32 * State.reset.cfg.pbufWords) := by decide

theorem witness_GlyphStartByState :
    State.reset.configured = false ∧ (p4 0).configured = true ∧ (p4 0).geometryWf ∧ 128 ≤ 128 ∧ 127 < 128 := by decide

theorem witness_ExtractRowByState :
    (State.reset.geometryWf ∧ State.reset.configured = false) ∧
    (let s := image 64 2 3 0 []; s.geometryWf ∧ s.configured = true ∧ s.loadCount.toNat ≠ s.totalWords) ∧
    (let s := p4 0; s.geometryWf ∧ s.configured = true ∧ s.loadCount.toNat = s.totalWords ∧ 128 ≤ 128) ∧
    (let s := p4 1; s.geometryWf ∧ s.configured = true ∧ s.loadCount.toNat = s.totalWords ∧ 127 < 128 ∧
      s.charHeight ≤ s.arg0.toNat) ∧
    (let s := p4 0; s.geometryWf ∧ s.configured = true ∧ s.loadCount.toNat = s.totalWords ∧ 127 < 128 ∧
      s.arg0.toNat < s.charHeight) := ⟨by decide, by decide, by decide, by decide, by decide⟩

theorem witness_GlyphWindowsStayInTheirRow :
    (p4 0).geometryWf ∧ (p4 0).configured = true ∧ 127 < 128 ∧ 0 < (p4 0).charHeight := by decide

theorem witness_GlyphCrossingCondition :
    (p4 0).geometryWf ∧ (p4 0).configured = true ∧ 127 < 128 ∧ 0 < (p4 0).charHeight ∧
    (p4 0).charWidth ∈ [1, 2, 4, 8, 16, 32] ∧
    p2.geometryWf ∧ p2.configured = true ∧ 0 < p2.charHeight ∧ p2.charWidth = 3 := by decide

theorem witness_LoadedImageIsWritten :
    (p4 0).geometryWf ∧ (p4 0).loadedWritten ∧ (p4 0).loaded = true ∧ 3 < (p4 0).totalWords ∧ 0 < (p4 0).charHeight ∧
    p2.geometryWf ∧ p2.loadedWritten ∧ p2.loaded = true ∧ 32 < rowBit p2 10 0 % 32 + p2.charWidth := by decide

theorem witness_ExtractedRowIsTheFilesPixels :
    let s := image 64 2 0 0 []
    s.Sound ∧ s.resetDone = true ∧ s.configured = true ∧ s.loadCount = 0 ∧ s.err = 0 ∧
      [0x11223344, 0x55667788, 0x99AABBCC, (0xDDEEFF00 : Word)].length = s.totalWords ∧ 127 < 128 ∧ 0 < s.charHeight := by
  decide

/-! ### Witnesses: every command, every step -/

theorem witness_CommandsKeepOperands : ∃ t, exec (.extractRow 127) (p4 0) = .next t := ⟨_, rfl⟩

theorem witness_ResultWrittenByResultCommands : ∃ t, exec .bswap (withArgs 1 0) = .next t ∧ t.result ≠ (withArgs 1 0).result :=
  ⟨_, rfl, by decide⟩

theorem witness_PbufWrittenByLoadAndWriteRaw :
    (∃ t, exec (.writeRaw 4095) (withArgs 1 0) = .next t) ∧ (∃ t, exec (.readRaw 4095) (withArgs 1 0) = .next t) ∧
    (Instr.readRaw 4095).opcode ≠ .load ∧ (Instr.readRaw 4095).opcode ≠ .writeRaw :=
  ⟨⟨_, rfl⟩, ⟨_, rfl⟩, by decide, by decide⟩

theorem witness_GeometryChangesByConfigOrReset :
    let s := queuedCmd 0x20000000 (image 64 2 3 0 [])
    (∃ t, step s = .next t) ∧ (∀ rest, s.inbox ≠ .reset :: rest) ∧ (∀ x rest, s.inbox ≠ .resetDuring x :: rest) ∧
      s.configured = true ∧ ∀ rest, s.inbox ≠ .transfer (.write Reg.cmd.addr 0x10000000) :: rest :=
  ⟨⟨_, rfl⟩, fun _ h => by injection h; contradiction, fun _ _ h => by injection h; contradiction, rfl,
    fun _ h => by injection h with h; injection h with h; injection h with _ h; exact absurd h (by decide)⟩

theorem witness_StepKeepsSound :
    (queuedCmd 0x20000000 (image 64 2 3 0 [])).Sound ∧ ∃ t, step (queuedCmd 0x20000000 (image 64 2 3 0 [])) = .next t :=
  ⟨by decide, _, rfl⟩

theorem witness_StepKeepsLoadedWritten :
    let s := queuedCmd 0x30000000 (p4 7)
    s.Sound ∧ s.loadedWritten ∧ ∃ t, step s = .next t ∧ t.resetDone = true :=
  ⟨by decide, by decide, _, rfl, rfl⟩

theorem witness_SoundStepCompletes : (queuedCmd 0x80000000 (p4 0)).Sound ∧ (p4 0).resetDone = true := by decide

theorem witness_ConfigurationIsConstant : ∃ t, step (queuedCmd 0x10000000 (withArgs 64 2)) = .next t := ⟨_, rfl⟩

theorem witness_CanonicalMemoryIsItsContents :
    Memory.wf 4096 (p4 0).pbuf = true ∧ ∀ a, Memory.lookup (p4 0).pbuf a = Memory.lookup (p4 0).pbuf a :=
  ⟨by decide, fun _ => rfl⟩

/-! ### Witnesses: the signal level -/

/-- A write of `v` to CMD held on the pins. -/
def cmdPins (v : Word) : Pins := { rstN := true, req := true, we := true, addr := 6, wdata := v }

/-- The block of state `s` with no transaction in progress. -/
def idleSignals (s : State) : Signals := { block := s, phase := .idle }

theorem witness_SignalsRefineTransactions :
    let ins := [(1, cmdPins 0x50000000), (0, cmdPins 0x50000000), (0, cmdPins 0x50000000)]
    (∃ d, Signals.run ins (idleSignals (withArgs 1 0)) = .next d ∧ d.block.result = 0x01000000) ∧
    Signals.events ins (idleSignals (withArgs 1 0)) = [.transfer (.write 6 0x50000000)] :=
  ⟨⟨_, rfl, by decide⟩, by decide⟩

theorem witness_TransactionTiming :
    let c := idleSignals (p4 0)
    c.block.Sound ∧ c.block.resetDone = true ∧ c.phase = .idle ∧ (cmdPins 0x80000000).rstN = true ∧
      (cmdPins 0x80000000).req = true := by decide

theorem witness_ResetPinResetsTheBlock :
    ({ cmdPins 0 with rstN := false }).rstN = false ∧ (∀ l n, (idleSignals (p4 0)).phase ≠ .busy l n) ∧
    (let c : Signals := { block := p4 7, phase := .busy (cmdPins 0x30000000).latch 0 }
     c.phase = .busy (cmdPins 0x30000000).latch 0 ∧ c.block.resetDone = true) ∧
    ∃ d, Signals.edge 0 { cmdPins 0 with rstN := false } { block := p4 7, phase := .acking } = .next d :=
  ⟨rfl, (fun _ _ h => by cases h), by decide, _, rfl⟩

end Sys2Proof.Tests
end

section
/-! PROOFS. The STATUS register bit by bit (10_state.md R34), and the registers that ignore writes (20_memory.md R81). -/

namespace Sys2Proof.Machine

/-- The number in STATUS, cut at bit 8 into ERR below and the two flags above. -/
theorem status_eq_trunc32 (s : State) :
    s.status = trunc32 (2 ^ 8 * (2 ^ 1 * s.loaded.toNat + s.configured.toNat) + s.err.toNat) := by
  unfold State.status trunc32
  congr 1
  omega

/-- The flags of STATUS, counted from bit 8: CONFIGURED, then LOADED. -/
theorem statusFlags_testBit (configured loaded : Bool) (j : Nat) :
    (2 ^ 1 * loaded.toNat + configured.toNat).testBit j =
      if j = 0 then configured else if j = 1 then loaded else false := by
  rw [Nat.testBit_two_pow_mul_add _ (Bool.toNat_lt configured)]
  simp only [Nat.testBit_bool_toNat]
  match j with
  | 0 => simp
  | 1 => simp
  | _ + 2 => simp

theorem status_getLsbD (s : State) {b : Nat} (hb : b < 32) : s.status.getLsbD b =
    if b < 4 then s.err.getLsbD b
    else if b = 8 then s.configured
    else if b = 9 then s.loaded
    else false := by
  have herr : s.err.toNat < 2 ^ 8 := lt_trans s.err.isLt (by decide)
  rw [status_eq_trunc32, trunc32_getLsbD, decide_eq_true hb, Bool.true_and, Nat.testBit_two_pow_mul_add _ herr]
  by_cases hlow : b < 8
  · rw [if_pos hlow, BitVec.testBit_toNat]
    by_cases h4 : b < 4
    · rw [if_pos h4]
    · rw [BitVec.getLsbD_of_ge _ _ (Nat.le_of_not_lt h4), if_neg h4, if_neg (by omega), if_neg (by omega)]
  · rw [if_neg hlow, statusFlags_testBit, if_neg (show ¬ b < 4 by omega)]
    simp only [show b - 8 = 0 ↔ b = 8 by omega, show b - 8 = 1 ↔ b = 9 by omega]

/-- Only ARG0, ARG1 and CMD take a write (20_memory.md R80, R81). -/
theorem busWrite_readOnly (s : State) {r : Reg} (v : Word) (h0 : r ≠ .arg0) (h1 : r ≠ .arg1) (hc : r ≠ .cmd) :
    busWrite s r.addr v = .next s := by
  unfold busWrite
  rw [ofAddr_addr]
  cases r with
  | arg0 => exact absurd rfl h0
  | arg1 => exact absurd rfl h1
  | cmd => exact absurd rfl hc
  | _ => rfl

end Sys2Proof.Machine

open Sys2Proof Sys2Proof.Machine

/-- Settles O15: STATUS cut into its fields at bit 8, and STATUS as one of the registers that ignore a write. -/
theorem statusFields : Obligations.StatusFields := by
  intro s
  exact ⟨fun b hb => status_getLsbD s hb,
    fun v => busWrite_readOnly s v (by decide) (by decide) (by decide)⟩
end

section
/-! PROOFS. What one read or write transaction does at each word offset (20_memory.md R81, R91, R92). -/

namespace Sys2Proof.Machine

/-! ### The registers at their offsets -/

theorem busRead_addr (s : State) (r : Reg) : busRead s r.addr = s.readReg r := by
  simp [busRead]

theorem busRead_reserved (s : State) {a : RegAddr} (h : 16 ≤ a.toNat) : busRead s a = 0 := by
  simp [busRead, ofAddr_reserved a h]

theorem busWrite_arg0 (s : State) (v : Word) : busWrite s Reg.arg0.addr v = .next (setArg0 s v) := by
  simp [busWrite]

theorem busWrite_arg1 (s : State) (v : Word) : busWrite s Reg.arg1.addr v = .next (setArg1 s v) := by
  simp [busWrite]

theorem busWrite_cmd (s : State) (v : Word) : busWrite s Reg.cmd.addr v = commandStep v s := by
  simp [busWrite]

theorem busWrite_unmapped (s : State) {a : RegAddr} (v : Word) (h : Reg.ofAddr a = none) : busWrite s a v = .next s := by
  simp [busWrite, h]

/-- An offset that is not ARG0's, ARG1's or CMD's has a read-only register or none. -/
theorem busWrite_ignored (s : State) {a : RegAddr} (v : Word) (h0 : a ≠ Reg.arg0.addr) (h1 : a ≠ Reg.arg1.addr)
    (hc : a ≠ Reg.cmd.addr) : busWrite s a v = .next s := by
  cases h : Reg.ofAddr a with
  | none => exact busWrite_unmapped s v h
  | some r =>
    obtain rfl := eq_addr_of_ofAddr a r h
    exact busWrite_readOnly s v (ne_of_apply_ne Reg.addr h0) (ne_of_apply_ne Reg.addr h1) (ne_of_apply_ne Reg.addr hc)

/-! ### One transaction -/

theorem step_read {s : State} {a : RegAddr} {rest : List BusEvent} (hr : s.resetDone = true)
    (h : s.inbox = .transfer (.read a) :: rest) :
    step s = .next { s with inbox := rest, reply := .readAck (busRead s a) } :=
  step_transfer h hr

theorem step_write {s : State} {a : RegAddr} {v : Word} {rest : List BusEvent} (hr : s.resetDone = true)
    (h : s.inbox = .transfer (.write a v) :: rest) :
    step s = busWrite { s with inbox := rest, reply := .writeAck } a v :=
  step_transfer h hr

/-- Only a write to CMD can raise an error or clear one. -/
theorem transfer_keeps_error {s t : State} {x : Transaction} (hx : ∀ v, x ≠ .write Reg.cmd.addr v)
    (h : transfer x s = .next t) : t.err = s.err ∧ t.errCmd = s.errCmd := by
  obtain ⟨a, rfl, rfl⟩ | ⟨a, v, rfl, hw⟩ := transfer_cases h
  case inl => exact ⟨rfl, rfl⟩
  case inr =>
    obtain rfl | ⟨-, rfl⟩ | ⟨-, rfl⟩ | ⟨rfl, -⟩ := busWrite_cases hw
    · exact ⟨rfl, rfl⟩
    · exact ⟨rfl, rfl⟩
    · exact ⟨rfl, rfl⟩
    · exact absurd rfl (hx v)

theorem rdata_eq_some {c : Signals} {v : Word} :
    c.rdata = some v ↔ c.phase = .acking ∧ c.block.reply = .readAck v := by
  unfold Signals.rdata
  split <;> simp_all

end Sys2Proof.Machine

open Sys2Proof Sys2Proof.Machine

/-- Settles O12: the step is `busWrite` at the transaction's offset, which stores at ARG0 and ARG1, executes at CMD and
ignores the write elsewhere. -/
theorem writeTransactions : Obligations.WriteTransactions := by
  intro s a v rest hr hq
  rw [step_write hr hq]
  refine ⟨?arg0, ?arg1, ?cmd, ?other⟩
  case arg0 => rintro rfl; exact busWrite_arg0 _ v
  case arg1 => rintro rfl; exact busWrite_arg1 _ v
  case cmd => rintro rfl; exact busWrite_cmd _ v
  case other => exact fun h0 h1 hc => busWrite_ignored _ v h0 h1 hc

/-- Settles O13: the read's step, the register map's two kinds of offset, and the phase and reply that rdata needs. -/
theorem readTransactions : Obligations.ReadTransactions := by
  intro s a rest hr hq
  refine ⟨step_read hr hq, ?register, ?cmd, busRead_reserved s, ?rdata⟩
  case register => rintro r rfl; exact busRead_addr s r
  case cmd => rintro rfl; exact busRead_addr s .cmd
  case rdata =>
    intro c v h
    obtain ⟨hphase, hreply⟩ := rdata_eq_some.mp h
    exact ⟨decide_eq_true hphase, hreply⟩

/-- Settles O16: read-only and reserved offsets ignore a write, CMD and reserved offsets read 0, and of the accesses only a
command reaches ERR and ERR_CMD. -/
theorem ignoredAccesses : Obligations.IgnoredAccesses :=
  ⟨fun s _ v h0 h1 hc => busWrite_readOnly s v h0 h1 hc,
    fun s => busRead_addr s .cmd,
    fun s a v h => ⟨busRead_reserved s h, busWrite_unmapped s v (ofAddr_reserved a h)⟩,
    fun _ _ _ hx h => transfer_keeps_error hx h⟩
end

section
/-! PROOFS. The rows of the opcode map as one table, which words the decoder accepts and what it reads from them
(30_encoding.md R102 to R108); the transactions of script lines (R116). -/

namespace Sys2Proof

/-! ### The rows as data -/

/-- The row's OPC (30_encoding.md R106). -/
def Opcode.number : Opcode → Nat
  | .nop => 0
  | .config => 1
  | .load => 2
  | .writeRaw => 3
  | .readRaw => 4
  | .bswap => 5
  | .extractSpan => 6
  | .glyphStart => 7
  | .extractRow => 8
  | .clearErr => 9

/-- How many low bits of the word the row's format gives to its field; the bits between them and OPC are reserved
(30_encoding.md R102 to R105). -/
def Opcode.fieldBits : Opcode → Nat
  | .nop | .config | .load | .bswap | .clearErr => 0
  | .writeRaw | .readRaw => 24
  | .extractSpan => 6
  | .glyphStart | .extractRow => 8

/-- The row's command with its field read from a word (30_encoding.md R103 to R105). -/
def Opcode.commandOf (c : Word) : Opcode → Instr
  | .nop => .nop
  | .config => .config
  | .load => .load
  | .writeRaw => .writeRaw (bitsOf c 23 0)
  | .readRaw => .readRaw (bitsOf c 23 0)
  | .bswap => .bswap
  | .extractSpan => .extractSpan (bitsOf c 5 0)
  | .glyphStart => .glyphStart (bitsOf c 7 0)
  | .extractRow => .extractRow (bitsOf c 7 0)
  | .clearErr => .clearErr

@[simp] theorem opcode_commandOf (c : Word) (op : Opcode) : (op.commandOf c).opcode = op := by
  cases op <;> rfl

theorem Opcode.exists_number : ∀ n < 10, ∃ op : Opcode, op.number = n
  | 0, _ => ⟨.nop, rfl⟩
  | 1, _ => ⟨.config, rfl⟩
  | 2, _ => ⟨.load, rfl⟩
  | 3, _ => ⟨.writeRaw, rfl⟩
  | 4, _ => ⟨.readRaw, rfl⟩
  | 5, _ => ⟨.bswap, rfl⟩
  | 6, _ => ⟨.extractSpan, rfl⟩
  | 7, _ => ⟨.glyphStart, rfl⟩
  | 8, _ => ⟨.extractRow, rfl⟩
  | 9, _ => ⟨.clearErr, rfl⟩
  | n + 10, h => absurd h (by omega)

/-! ### The mask and match columns -/

/-- A row's mask covers OPC and the reserved bits, and its match is OPC with the reserved bits 0. -/
theorem and_mask_eq_match_iff_fields (op : Opcode) (c : Word) :
    c &&& op.mask = op.matchWord ↔ bitsOf c 31 28 = op.number ∧ bitsOf c 27 op.fieldBits = 0 := by
  have hc : c.toNat < 2 ^ 32 := c.isLt
  rw [and_mask_eq_match]
  cases op <;> simp only [bitsOf, Opcode.number, Opcode.fieldBits] <;> omega

/-! ### The decoder -/

theorem acceptIf_eq_command {r opc : Nat} {i j : Instr} : acceptIf r opc i = .command j ↔ r = 0 ∧ j = i := by
  unfold acceptIf
  split <;> simp_all [eq_comm]

theorem acceptIf_isIllegal {r opc : Nat} {i : Instr} : (∃ why, acceptIf r opc i = .illegal why) ↔ r ≠ 0 := by
  unfold acceptIf
  split <;> simp_all

/-- In a row of the opcode map the decoder looks at the reserved bits alone. -/
theorem decode_of_number {c : Word} (op : Opcode) (h : bitsOf c 31 28 = op.number) :
    decode c = acceptIf (bitsOf c 27 op.fieldBits) op.number (op.commandOf c) := by
  unfold decode
  rw [h]
  cases op <;> rfl

theorem decode_of_reserved_opcode {c : Word} (h : 10 ≤ bitsOf c 31 28) :
    decode c = .illegal (.reservedOpcode (bitsOf c 31 28)) := by
  obtain ⟨k, hk⟩ := Nat.exists_eq_add_of_le' h
  rw [decode, hk]
  rfl

/-- A word's OPC selects one row, or none. -/
theorem opcode_row_or_reserved (c : Word) : (∃ op : Opcode, bitsOf c 31 28 = op.number) ∨ 10 ≤ bitsOf c 31 28 := by
  rcases Nat.lt_or_ge (bitsOf c 31 28) 10 with h | h
  · obtain ⟨op, hop⟩ := Opcode.exists_number _ h
    exact .inl ⟨op, hop.symm⟩
  · exact .inr h

theorem decode_eq_command {c : Word} {i : Instr} :
    decode c = .command i ↔ c &&& i.opcode.mask = i.opcode.matchWord ∧ i = i.opcode.commandOf c := by
  rw [and_mask_eq_match_iff_fields]
  constructor
  · intro hd
    obtain ⟨op, hop⟩ | hres := opcode_row_or_reserved c
    · rw [decode_of_number op hop, acceptIf_eq_command] at hd
      obtain ⟨hzero, rfl⟩ := hd
      simp [hop, hzero]
    · rw [decode_of_reserved_opcode hres] at hd
      cases hd
  · rintro ⟨⟨hop, hzero⟩, hi⟩
    rw [decode_of_number i.opcode hop, acceptIf_eq_command]
    exact ⟨hzero, hi⟩

/-- The words no row matches are the ILLEGAL ones: the decoder answers a command or a reason, never neither. -/
theorem decode_isIllegal_iff_no_row (c : Word) :
    (∃ why, decode c = .illegal why) ↔ ∀ op : Opcode, c &&& op.mask ≠ op.matchWord := by
  constructor
  · rintro ⟨why, hill⟩ op hop
    have hcmd : decode c = .command (op.commandOf c) := decode_eq_command.mpr (by simpa using hop)
    rw [hill] at hcmd
    cases hcmd
  · intro hnone
    cases hd : decode c with
    | command i => exact absurd (decode_eq_command.mp hd).1 (hnone i.opcode)
    | illegal why => exact ⟨why, rfl⟩

theorem bitsOf_opc (c : Word) : bitsOf c 31 28 = c.toNat / 2 ^ 28 :=
  Nat.mod_eq_of_lt (by have := c.isLt; omega)

theorem bitsOf_low (c : Word) (hi : Nat) : bitsOf c hi 0 = c.toNat % 2 ^ (hi + 1) := by
  simp [bitsOf]

end Sys2Proof

namespace Sys2Proof.Machine

theorem admitted_of_no_error {s : State} (h : s.err = 0) (c : Word) : admitted c s = true := by
  simp [admitted, State.inError, h]

theorem commandStep_illegal {c : Word} {s : State} (ha : admitted c s = true) (hd : ∃ why, decode c = .illegal why) :
    commandStep c s = .next (raise .illegal c s) := by
  obtain ⟨why, hd⟩ := hd
  simp [commandStep, ha, hd]

/-! ### Script lines -/

theorem writeEvent_arg0 (v : Word) : writeEvent .arg0 v = .transfer (.write (0x10 / 4) v) := rfl

theorem writeEvent_arg1 (v : Word) : writeEvent .arg1 v = .transfer (.write (0x14 / 4) v) := rfl

theorem commandEvent_eq (i : Instr) : commandEvent i = .transfer (.write (0x18 / 4) (encode i)) := rfl

theorem readEvent_status : readEvent .status = .transfer (.read (0x08 / 4)) := rfl

end Sys2Proof.Machine

open Sys2Proof Sys2Proof.Machine

/-- Settles O3: a command is its row's match with the row's field read from the word, and ILLEGAL is what no row matches. -/
theorem decodesByMaskAndMatch : Obligations.DecodesByMaskAndMatch := by
  intro c
  refine ⟨fun i => ?command, decode_isIllegal_iff_no_row c⟩
  rw [decode_eq_command]
  refine and_congr_right fun _ => ?field
  cases i <;> simp [Instr.opcode, Opcode.commandOf, bitsOf_low]

/-- Settles O4: in a row of the opcode map the reserved bits decide, above the rows every word is ILLEGAL; and with no error
recorded the gate admits the word, so that E_ILLEGAL is raised. -/
theorem illegalWords : Obligations.IllegalWords := by
  intro c
  refine ⟨?fields, fun s herr hill => commandStep_illegal (admitted_of_no_error herr c) hill⟩
  obtain ⟨op, hop⟩ | hres := opcode_row_or_reserved c
  · rw [decode_of_number op hop, acceptIf_isIllegal]
    rw [bitsOf_opc] at hop
    cases op
    all_goals
      simp [bitsOf, Opcode.number, Opcode.fieldBits] at hop ⊢
      omega
  · exact iff_of_true ⟨_, decode_of_reserved_opcode hres⟩ (.inl (bitsOf_opc c ▸ hres))

/-- Settles O55: the register offsets and the encodings that the lines of each pseudo-instruction use. -/
theorem pseudoInstructionExpansions : Obligations.PseudoInstructionExpansions := by
  have hconfig : encode .config = 0x10000000 := by decide
  have hload : encode .load = 0x20000000 := by decide
  have hbswap : encode .bswap = 0x50000000 := by decide
  simp only [Obligations.PseudoInstructionExpansions, ScriptLine.expand, writeEvent_arg0, writeEvent_arg1,
    commandEvent_eq, readEvent_status, hconfig, hload, hbswap, implies_true, and_self]
end

section
/-! PROOFS. The control commands (40_control.md R140 to R144): the gate and the words without a field, CONFIG by its
operands, and which glyph scanlines of a loaded image EXTRACT_ROW reads. -/

namespace Sys2Proof

/-! ### The rows without a field -/

theorem mask_of_fieldless {op : Opcode} : op.fieldBits = 0 → op.mask = BitVec.allOnes 32 := by
  cases op <;> decide

/-- A row without a field matches one word alone: every other word with its OPC has a reserved bit set. -/
theorem decode_isIllegal_of_fieldless {op : Opcode} {c : Word} (hfield : op.fieldBits = 0)
    (hopc : c.toNat / 2 ^ 28 = op.number) (hne : c ≠ op.matchWord) : ∃ why, decode c = .illegal why := by
  have hnum : bitsOf c 31 28 = op.number := bitsOf_opc c ▸ hopc
  rw [decode_of_number op hnum, acceptIf_isIllegal]
  intro hzero
  have hmatch := (and_mask_eq_match_iff_fields op c).mpr ⟨hnum, hzero⟩
  rw [mask_of_fieldless hfield, BitVec.and_allOnes] at hmatch
  exact hne hmatch

end Sys2Proof

namespace Sys2Proof.Machine

/-! ### The gate -/

theorem admitted_clearErr (s : State) : admitted 0x90000000 s = true := by
  simp [admitted]

/-- In the error state the gate rejects every word but CLEAR_ERR's (60_exceptions.md R202). -/
theorem admitted_eq_false {s : State} {c : Word} (herr : s.err ≠ 0) (hc : c ≠ 0x90000000) : admitted c s = false := by
  simpa [admitted, State.inError] using And.intro herr hc

theorem commandStep_rejected {c : Word} {s : State} (ha : admitted c s = false) : commandStep c s = .next s := by
  simp [commandStep, ha]

theorem commandStep_command {c : Word} {s : State} {i : Instr} (ha : admitted c s = true) (hd : decode c = .command i) :
    commandStep c s = exec i s := by
  simp [commandStep, ha, hd]

theorem exec_nop (s : State) : exec .nop s = .next s := rfl

theorem exec_clearErr (s : State) : exec .clearErr s = .next (clearError s) := rfl

/-! ### CONFIG by its operands -/

/-- WORDS_PER_LINE of an aligned width: an image row is a whole number of 32-pixel words (40_control.md R143). -/
theorem wordsPerLineOf_aligned {width : Nat} (h : width % 64 = 0) :
    wordsPerLineOf (bytesPerLineOf (charWidthOf width)) = width / 32 := by
  simp only [wordsPerLineOf, bytesPerLineOf, charWidthOf]
  omega

theorem charWidthOf_out_of_range {width : Nat} :
    charWidthOf width = 0 ∨ 32 < charWidthOf width ↔ width < 64 ∨ 2112 ≤ width := by
  simp only [charWidthOf]
  omega

theorem exec_config_misaligned {s : State} (h : s.arg0.toNat % 64 ≠ 0) :
    exec .config s = raiseIn .config .geomAlign s := if_pos h

/-- With an aligned width CONFIG checks the range of the glyph width, then the size of the image, and else accepts. -/
theorem exec_config_aligned {s : State} (h : s.arg0.toNat % 64 = 0) :
    exec .config s =
      if s.arg0.toNat < 64 ∨ 2112 ≤ s.arg0.toNat then raiseIn .config .widthRange s
      else if s.cfg.pbufWords < s.arg0.toNat / 32 * s.arg1.toNat then raiseIn .config .capacity s
      else .next (acceptGeometry s) := by
  simp only [exec, execConfig, charWidthOf_out_of_range, wordsPerLineOf_aligned h, h, ne_eq, not_true_eq_false, if_false]

theorem loaded_iff {s : State} : s.loaded = true ↔ s.configured = true ∧ s.loadCount.toNat = s.totalWords := by
  simp [State.loaded]

/-- A geometry just accepted has no word loaded, so it is loaded exactly when it asks for none. -/
theorem loaded_acceptGeometry {s : State} (h : 64 ≤ s.arg0.toNat) :
    (acceptGeometry s).loaded = true ↔ s.arg1 = 0 := by
  have hwpl : (acceptGeometry s).wordsPerLine ≠ 0 := by
    simp only [wordsPerLine_eq, State.charWidth, acceptGeometry_imgWidth, charWidthOf]
    omega
  simp [loaded_iff, State.totalWords, hwpl, ← BitVec.toNat_inj]

/-! ### EXTRACT_ROW on a loaded image -/

/-- The span of a glyph scanline, in its logical row: the rows of glyphs 64 to 127 stand below those of glyphs 0 to 63
(42_extractor.md R184, R185). -/
theorem rowBit_eq {s : State} {g : Nat} (r : Nat) (hg : g < 128) :
    rowBit s g r = (g / 64 * s.charHeight + r) * s.wordsPerLine * 32 + g % 64 * s.charWidth := by
  unfold rowBit startBit
  split
  next h => rw [Nat.div_eq_of_lt h]; ring
  next h => rw [show g / 64 = 1 by omega]; ring

theorem glyphRow_lt_imgHeight {s : State} {g r : Nat} (hg : g < 128) (hr : r < s.charHeight) :
    g / 64 * s.charHeight + r < s.imgHeight.toNat := by
  have hheight : 2 * s.charHeight ≤ s.imgHeight.toNat := Nat.mul_div_le _ 2
  have hhalf : g / 64 * s.charHeight ≤ 1 * s.charHeight := Nat.mul_le_mul_right _ (by omega)
  omega

/-- The span of every glyph scanline ends inside the image, whatever the geometry. -/
theorem rowBit_add_charWidth_le {s : State} {g r : Nat} (hg : g < 128) (hr : r < s.charHeight) :
    rowBit s g r + s.charWidth ≤ 32 * s.totalWords := by
  have hcol : (g % 64 + 1) * s.charWidth ≤ 64 * s.charWidth := Nat.mul_le_mul_right _ (by omega)
  have hrow : (g / 64 * s.charHeight + r + 1) * s.wordsPerLine ≤ s.imgHeight.toNat * s.wordsPerLine :=
    Nat.mul_le_mul_right _ (glyphRow_lt_imgHeight hg hr)
  have hbits : s.wordsPerLine * 32 = 64 * s.charWidth := by rw [wordsPerLine_eq]; ring
  calc rowBit s g r + s.charWidth
      = (g / 64 * s.charHeight + r) * s.wordsPerLine * 32 + (g % 64 + 1) * s.charWidth := by rw [rowBit_eq r hg]; ring
    _ ≤ (g / 64 * s.charHeight + r) * s.wordsPerLine * 32 + s.wordsPerLine * 32 := by omega
    _ = (g / 64 * s.charHeight + r + 1) * s.wordsPerLine * 32 := by ring
    _ ≤ s.imgHeight.toNat * s.wordsPerLine * 32 := Nat.mul_le_mul_right _ hrow
    _ = 32 * s.totalWords := by rw [State.totalWords]; ring

/-- Once loaded, EXTRACT_ROW of a glyph and scanline of the atlas is its span read: no check is left that fails. -/
theorem exec_extractRow_of_loaded {s : State} {g : Nat} (hl : s.loaded = true) (hg : g < 128)
    (hr : s.arg0.toNat < s.charHeight) :
    exec (.extractRow g) s = finish ((span s (rowBit s g s.arg0.toNat) s.charWidth).map (setResult s)) := by
  obtain ⟨hconf, hcount⟩ := loaded_iff.mp hl
  have hspan := rowBit_add_charWidth_le hg hr
  simp only [exec, execExtractRow, hconf, hcount, Bool.true_eq_false, ne_eq, not_true_eq_false, if_false,
    Nat.not_le_of_lt hg, Nat.not_le_of_lt hr, Nat.not_lt_of_le hspan]

/-- Inside the invariant that span read answers, and RESULT holds a value of the glyph's width. -/
theorem exec_extractRow_result {s : State} {g : Nat} (hgeo : s.geometryWf) (hl : s.loaded = true) (hg : g < 128)
    (hr : s.arg0.toNat < s.charHeight) :
    ∃ v, exec (.extractRow g) s = .next (setResult s v) ∧ v < 2 ^ s.charWidth ∧ s.charWidth ≤ 32 := by
  obtain ⟨-, hconf, -, -⟩ := hgeo
  obtain ⟨-, hmin, hmax, -, -, hcap⟩ := hconf (loaded_iff.mp hl).1
  have hin : rowBit s g s.arg0.toNat + s.charWidth ≤ 32 * s.cfg.pbufWords :=
    (rowBit_add_charWidth_le hg hr).trans (Nat.mul_le_mul_left 32 hcap)
  obtain ⟨v, hspan, hlt, -⟩ := span_spec hmin hmax hin
  refine ⟨v, ?_, hlt, hmax⟩
  rw [exec_extractRow_of_loaded hl hg hr, hspan]
  rfl

/-- Once loaded, EXTRACT_ROW outside the 128 glyphs or their scanlines raises E_GLYPH_RANGE or E_ROW_RANGE. -/
theorem exec_extractRow_out_of_atlas {s : State} {g : Nat} (hl : s.loaded = true)
    (hout : ¬ (g < 128 ∧ s.arg0.toNat < s.charHeight)) :
    ∃ e, exec (.extractRow g) s = raiseIn (.extractRow g) e s := by
  obtain ⟨hconf, hcount⟩ := loaded_iff.mp hl
  simp only [exec, execExtractRow, hconf, hcount, Bool.true_eq_false, ne_eq, not_true_eq_false, if_false]
  by_cases hg : g < 128
  · have hr : s.charHeight ≤ s.arg0Number := Nat.le_of_not_lt fun hr => hout ⟨hg, hr⟩
    rw [if_neg (Nat.not_le_of_lt hg), if_pos hr]
    exact ⟨.rowRange, rfl⟩
  · exact ⟨.glyphRange, if_pos (Nat.le_of_not_lt hg)⟩

end Sys2Proof.Machine

open Sys2Proof Sys2Proof.Machine

/-- Settles O24: the checks of CONFIG in their order, by the alignment of the width and then its range and the capacity. -/
theorem configByOperands : Obligations.ConfigByOperands := by
  intro s
  refine ⟨exec_config_misaligned, fun halign hrange => ?widthRange, fun halign hmin hmax hcap => ?capacity,
    fun halign hmin hmax hcap => ⟨?accepted, loaded_acceptGeometry hmin⟩⟩
  all_goals rw [exec_config_aligned halign]
  case widthRange => exact if_pos (by omega)
  case capacity => rw [if_neg (by omega)]; exact if_pos hcap
  case accepted => rw [if_neg (by omega)]; exact if_neg (by omega)

/-- Settles O26: the glyph size by division, then the span read of a scanline inside the atlas and the range checks outside
it; a result keeps ERR at 0 and a raise sets it. -/
theorem roundTripGeometry : Obligations.RoundTripGeometry := by
  intro s w h hgeo _ hwidth hheight
  have hcw : s.charWidth = w := by simp [State.charWidth, hwidth]
  have hch : s.charHeight = h := by simp [State.charHeight, hheight]
  refine ⟨hcw, hch, fun hl herr g => ?_⟩
  subst hcw hch
  refine ⟨fun ⟨hg, hr⟩ => ?inside, fun hout => ?outside⟩
  case inside =>
    obtain ⟨v, hexec, hlt, hmax⟩ := exec_extractRow_result hgeo hl hg hr
    have hword : v < 2 ^ 32 := hlt.trans_le (Nat.pow_le_pow_right (by decide) hmax)
    exact ⟨_, hexec, herr, by rwa [setResult_result, trunc32_toNat_of_lt hword]⟩
  case outside =>
    obtain ⟨e, hexec⟩ := exec_extractRow_out_of_atlas hl hout
    exact ⟨_, hexec, code_ne_zero e⟩

/-- Settles O22: NOP's word is rejected or executed, without effect either way, and it is the only word of its row. -/
theorem nopChangesNothing : Obligations.NopChangesNothing := by
  intro s
  refine ⟨exec_nop s, ?word, fun v hopc hne herr => ?reserved⟩
  case word =>
    cases ha : admitted 0x00000000 s with
    | false => exact commandStep_rejected ha
    | true => rw [commandStep_command ha (i := .nop) (by decide), exec_nop]
  case reserved =>
    exact commandStep_illegal (admitted_of_no_error herr v) (decode_isIllegal_of_fieldless (op := .nop) rfl hopc hne)

/-- Settles O23: CLEAR_ERR's word passes the gate in every state and clears ERR; the gate rejects any other word in the error
state, and without an error the other words of its row are ILLEGAL. -/
theorem clearErrClearsErrAlone : Obligations.ClearErrClearsErrAlone := by
  intro s
  refine ⟨exec_clearErr s, ?word, fun v hne => ⟨fun herr => ?rejected, fun hopc herr => ?reserved⟩⟩
  case word => rw [commandStep_command (admitted_clearErr s) (i := .clearErr) (by decide)]; exact exec_clearErr s
  case rejected => exact commandStep_rejected (admitted_eq_false herr hne)
  case reserved =>
    exact commandStep_illegal (admitted_of_no_error herr v) (decode_isIllegal_of_fieldless (op := .clearErr) rfl hopc hne)

/-- Settles O25: every length of a row is its multiple of CHAR_WIDTH. -/
theorem geometryLaws : Obligations.GeometryLaws := by
  intro s
  have hbytes := bytesPerLine_eq s
  have hwords := wordsPerLine_eq s
  exact ⟨hbytes, hwords, by omega, by omega, by omega⟩
end

section
/-! PROOFS. The normalizer commands (41_normalizer.md R160 to R167): the lane swap byte by byte, the row reorder by
rows and columns, and each command by its checks. -/

namespace Sys2Proof.Machine

/-! ### The lane swap -/

theorem bswap32_getLsbD_lane (v : Word) {i j : Nat} (hi : i < 4) (hj : j < 8) :
    (bswap32 v).getLsbD (8 * i + j) = v.getLsbD (8 * (3 - i) + j) := by
  have hbit : 8 * i + j < 32 := by omega
  have hlane : (8 * i + j) / 8 = i := by omega
  have hpos : (8 * i + j) % 8 = j := by omega
  rw [bswap32_getLsbD, hlane, hpos, decide_eq_true hbit, Bool.true_and]

/-- The lane swap moves whole bytes (41_normalizer.md R160). -/
theorem byteLane_bswap32 (v : Word) {i : Nat} (hi : i < 4) : byteLane (bswap32 v) i = byteLane v (3 - i) := by
  refine BitVec.eq_of_getLsbD_eq fun j hj => ?_
  rw [byteLane_getLsbD, byteLane_getLsbD, bswap32_getLsbD_lane v hi hj]

/-- A word is its four bytes. -/
theorem eq_iff_byteLane {v w : Word} : v = w ↔ ∀ i < 4, byteLane v i = byteLane w i := by
  refine ⟨fun h i _ => h ▸ rfl, fun h => BitVec.eq_of_getLsbD_eq fun b hb => ?_⟩
  have hj : b % 8 < 8 := Nat.mod_lt b (by decide)
  have hbit := congrArg (·.getLsbD (b % 8)) (h (b / 8) (by omega))
  simpa only [byteLane_getLsbD, Nat.div_add_mod, decide_eq_true hj, Bool.true_and] using hbit

theorem bswap32_involutive : Function.Involutive bswap32 := by
  refine fun v => eq_iff_byteLane.mpr fun i hi => ?_
  rw [byteLane_bswap32 _ hi, byteLane_bswap32 v (by omega), show 3 - (3 - i) = i by omega]

/-- A fixed point of the lane swap reads the same from both ends (41_normalizer.md R161). -/
theorem bswap32_eq_self_iff {v : Word} :
    bswap32 v = v ↔ byteLane v 3 = byteLane v 0 ∧ byteLane v 2 = byteLane v 1 := by
  rw [eq_iff_byteLane]
  constructor
  · intro h
    exact ⟨(byteLane_bswap32 v (by decide)).symm.trans (h 0 (by decide)),
      (byteLane_bswap32 v (by decide)).symm.trans (h 1 (by decide))⟩
  · rintro ⟨houter, hinner⟩ i hi
    rw [byteLane_bswap32 v hi]
    match i, hi with
    | 0, _ => exact houter
    | 1, _ => exact hinner
    | 2, _ => exact hinner.symm
    | 3, _ => exact houter.symm

/-! ### The row reorder -/

theorem wordsPerLine_pos_of_lt_totalWords {s : State} {k : Nat} (hk : k < s.totalWords) : 0 < s.wordsPerLine :=
  Nat.pos_of_mul_pos_right (Nat.zero_lt_of_lt hk)

/-- The rows are stored bottom row first (41_normalizer.md R162). -/
theorem dest_row {s : State} {k : Nat} (hw : 0 < s.wordsPerLine) :
    dest s k / s.wordsPerLine = s.imgHeight.toNat - 1 - k / s.wordsPerLine := by
  rw [dest, Nat.mul_comm, Nat.mul_add_div hw, Nat.div_eq_of_lt (Nat.mod_lt k hw), Nat.add_zero]

theorem dest_column (s : State) (k : Nat) : dest s k % s.wordsPerLine = k % s.wordsPerLine := by
  rw [dest, Nat.mul_add_mod', Nat.mod_mod]

/-- The row reorder is its own inverse on the image, because reversing the rows twice restores their order. -/
theorem dest_dest {s : State} {k : Nat} (hk : k < s.totalWords) : dest s (dest s k) = k := by
  have hrow : k / s.wordsPerLine ≤ s.imgHeight.toNat - 1 := Nat.le_sub_one_of_lt (Nat.div_lt_of_lt_mul hk)
  calc dest s (dest s k)
      = (s.imgHeight.toNat - 1 - dest s k / s.wordsPerLine) * s.wordsPerLine + dest s k % s.wordsPerLine := rfl
    _ = k / s.wordsPerLine * s.wordsPerLine + k % s.wordsPerLine := by
        rw [dest_row (wordsPerLine_pos_of_lt_totalWords hk), dest_column, Nat.sub_sub_self hrow]
    _ = k := Nat.div_add_mod' k _

theorem dest_bijOn (s : State) : Set.BijOn (dest s) (Set.Iio s.totalWords) (Set.Iio s.totalWords) :=
  have hinv : Set.LeftInvOn (dest s) (dest s) (Set.Iio s.totalWords) := fun _ hk => dest_dest hk
  have hmaps : Set.MapsTo (dest s) (Set.Iio s.totalWords) (Set.Iio s.totalWords) := fun _ hk => dest_lt hk
  Set.InvOn.bijOn ⟨hinv, hinv⟩ hmaps hmaps

/-! ### The commands by their checks -/

theorem setResult_toNat (s : State) (v : Word) : setResult s v.toNat = { s with result := v } := by
  simp [setResult]

theorem exec_bswap (s : State) : exec .bswap s = .next { s with result := bswap32 s.arg0 } :=
  congrArg Host.Outcome.next (setResult_toNat s _)

theorem exec_load_unconfigured {s : State} (h : s.configured = false) :
    exec .load s = raiseIn .load .notConfigured s := if_pos h

/-- A configured block takes the next stream word only while the image has a place for it. -/
theorem exec_load_configured {s : State} (h : s.configured = true) :
    exec .load s =
      if s.totalWords ≤ s.loadCount.toNat then raiseIn .load .loadOverrun s
      else finish ((memWrite s (dest s s.loadCount.toNat) (bswap32 s.arg0)).map (advanceLoad s.loadCount.toNat)) :=
  if_neg (by simp [h])

/-- Inside an image that fits PBUF, LOAD is its store and the count (41_normalizer.md R165). -/
theorem exec_load_next {s : State} (hconf : s.configured = true) (hcount : s.loadCount.toNat < s.totalWords)
    (hfit : s.totalWords ≤ s.cfg.pbufWords) :
    exec .load s =
      .next (advanceLoad s.loadCount.toNat (storeWord s (dest s s.loadCount.toNat) (bswap32 s.arg0))) := by
  rw [exec_load_configured hconf, if_neg (Nat.not_le_of_lt hcount), memWrite_of_lt ((dest_lt hcount).trans_le hfit)]
  rfl

/-- PBUF has at most 2^24 words (00_scope.md R9), so LOAD_COUNT does not wrap inside an image that fits. -/
theorem trunc32_count_succ_toNat {s : State} {k : Nat} (hk : k < s.totalWords)
    (hfit : s.totalWords ≤ s.cfg.pbufWords) : (trunc32 (k + 1)).toNat = k + 1 := by
  have hmax := s.cfg.le_max
  exact trunc32_toNat_of_lt (by omega)

theorem exec_writeRaw_of_lt {s : State} {addr : Nat} (h : addr < s.cfg.pbufWords) :
    exec (.writeRaw addr) s = .next (storeWord s addr s.arg0) := by
  simp only [exec, execWriteRaw, Nat.not_le_of_lt h, if_false, memWrite_of_lt h, finish]

theorem exec_writeRaw_of_ge {s : State} {addr : Nat} (h : s.cfg.pbufWords ≤ addr) :
    exec (.writeRaw addr) s = raiseIn (.writeRaw addr) .bounds s := if_pos h

theorem exec_readRaw_of_lt {s : State} {addr : Nat} (h : addr < s.cfg.pbufWords) :
    exec (.readRaw addr) s = .next { s with result := s.word addr } := by
  simp only [exec, execReadRaw, Nat.not_le_of_lt h, if_false, memRead_of_lt h, Except.map, finish, setResult_toNat]

theorem exec_readRaw_of_ge {s : State} {addr : Nat} (h : s.cfg.pbufWords ≤ addr) :
    exec (.readRaw addr) s = raiseIn (.readRaw addr) .bounds s := if_pos h

end Sys2Proof.Machine

open Sys2Proof Sys2Proof.Machine

/-- Settles O27: the bit of the swapped word, addressed by its byte and its place there. -/
theorem laneSwapMovesBytes : Obligations.LaneSwapMovesBytes :=
  fun v _ _ hi hj => bswap32_getLsbD_lane v hi hj

/-- Settles O28: byte `i` is byte `3 - i` of the swapped word, so swapping twice moves no byte, and a word is fixed when its
bytes read the same from both ends. -/
theorem laneSwapInvolution : Obligations.LaneSwapInvolution :=
  ⟨bswap32_involutive, bswap32_involutive.bijective, fun _ => bswap32_eq_self_iff⟩

/-- Settles O30: the destination function is its own inverse on the image, and its row and column are a quotient and a
remainder. -/
theorem rowReorderLaws : Obligations.RowReorderLaws :=
  fun s => ⟨dest_bijOn s, fun k hk => ⟨dest_row (wordsPerLine_pos_of_lt_totalWords hk), dest_column s k⟩⟩

/-- Settles O31: the checks of LOAD in their order; the accepted word is stored at `dest`, whose address the statement writes
out, and LOAD_COUNT rises without wrapping. -/
theorem loadByState : Obligations.LoadByState := by
  intro s
  refine ⟨exec_load_unconfigured, fun hconf hfull => ?overrun,
    fun hconf hcount hfit => ⟨_, exec_load_next hconf hcount hfit, rfl, ?count, ?loaded, fun a => ?words⟩⟩
  case overrun => rw [exec_load_configured hconf]; exact if_pos hfull
  case count => exact trunc32_count_succ_toNat hcount hfit
  case loaded =>
    simp [State.loaded, trunc32_count_succ_toNat hcount hfit, hconf]
  case words => rw [advanceLoad_word, storeWord_word]; rfl

/-- Settles O29: the value written is a word already, so RESULT holds it whole. -/
theorem bswapWritesResult : Obligations.BswapWritesResult := exec_bswap

/-- Settles O32: by the bounds check, the store of one word or the raise. -/
theorem writeRawByAddress : Obligations.WriteRawByAddress :=
  fun s addr => ⟨fun h => ⟨_, exec_writeRaw_of_lt h, rfl, storeWord_word s addr s.arg0⟩, exec_writeRaw_of_ge⟩

/-- Settles O33: by the bounds check, the read of one word or the raise. -/
theorem readRawByAddress : Obligations.ReadRawByAddress :=
  fun _ _ => ⟨exec_readRaw_of_lt, exec_readRaw_of_ge⟩
end

section
/-! PROOFS. The extractor commands (42_extractor.md R180 to R191): the two arithmetic forms of the span, the span read into
RESULT, each command by its checks, and where glyph scanlines cross a word boundary. -/

namespace Sys2Proof.Machine

/-! ### The span as a slice -/

/-- A crossing span is a slice of the 64-bit concatenation of its two words (42_extractor.md R183). -/
theorem spanAcross_eq {x y : Word} {off w : Nat} (ho : off < 32) (hc : 32 < off + w) (hw : w ≤ 32) :
    spanAcross x y off w = (x.toNat * 2 ^ 32 + y.toNat) / 2 ^ (64 - off - w) % 2 ^ w := by
  refine Nat.eq_of_testBit_eq fun j => ?_
  rw [spanAcross_testBit_of ho hc hw, Nat.testBit_mod_two_pow, Nat.testBit_div_two_pow, Nat.mul_comm,
    Nat.testBit_two_pow_mul_add _ y.isLt]
  by_cases hlow : j < off + w - 32
  · rw [if_pos hlow, if_pos (by omega), decide_eq_true (by omega : j < w), Bool.true_and, BitVec.getLsbD,
      Nat.add_comm]
  · rw [if_neg hlow, if_neg (by omega), BitVec.getLsbD, show j + (64 - off - w) - 32 = j - (off + w - 32) by omega]

/-! ### The span read into RESULT -/

/-- A span of at most 32 bits fits RESULT. -/
theorem trunc32_toNat_of_lt_two_pow {v w : Nat} (hw : w ≤ 32) (hv : v < 2 ^ w) : (trunc32 v).toNat = v :=
  trunc32_toNat_of_lt (hv.trans_le (Nat.pow_le_pow_right (by decide) hw))

/-- What EXTRACT_SPAN and EXTRACT_ROW end in: inside PBUF the span read writes RESULT alone, with the stream bits from `p` on
right-justified and zeros above them. -/
theorem span_into_result {s : State} {p w : Nat} (h1 : 1 ≤ w) (h2 : w ≤ 32) (hin : p + w ≤ 32 * s.cfg.pbufWords) :
    ∃ t, finish ((span s p w).map (setResult s)) = .next t ∧ t = { s with result := t.result } ∧
      (∀ i, i < w → t.result.getLsbD (w - 1 - i) = s.streamBit (p + i)) ∧
      ∀ b, w ≤ b → t.result.getLsbD b = false := by
  obtain ⟨v, hspan, hlt, hbits⟩ := span_spec h1 h2 hin
  have hresult : ∀ b, (setResult s v).result.getLsbD b = v.testBit b := fun b => by
    rw [setResult_result, BitVec.getLsbD, trunc32_toNat_of_lt_two_pow h2 hlt]
  refine ⟨setResult s v, by rw [hspan]; rfl, rfl, fun i hi => ?_, fun b hb => ?_⟩
  · rw [hresult, hbits i hi]
  · rw [hresult, Nat.testBit_lt_two_pow (hlt.trans_le (Nat.pow_le_pow_right (by decide) hb))]

/-! ### The commands by their checks -/

theorem exec_extractSpan_width {s : State} {w : Nat} (h : w = 0 ∨ 32 < w) :
    exec (.extractSpan w) s = raiseIn (.extractSpan w) .widthRange s := if_pos h

/-- With a width in range EXTRACT_SPAN checks the end of the span, and else reads it (42_extractor.md R186). -/
theorem exec_extractSpan_in_range {s : State} {w : Nat} (h1 : 1 ≤ w) (h2 : w ≤ 32) :
    exec (.extractSpan w) s =
      if 32 * s.cfg.pbufWords < s.arg0.toNat + w then raiseIn (.extractSpan w) .bounds s
      else finish ((span s s.arg0.toNat w).map (setResult s)) :=
  if_neg (by omega)

theorem exec_glyphStart_unconfigured {s : State} {g : Nat} (h : s.configured = false) :
    exec (.glyphStart g) s = raiseIn (.glyphStart g) .notConfigured s := if_pos h

theorem exec_glyphStart_configured {s : State} {g : Nat} (h : s.configured = true) :
    exec (.glyphStart g) s =
      if 128 ≤ g then raiseIn (.glyphStart g) .glyphRange s else .next (setResult s (startBit s g)) :=
  if_neg (by simp [h])

theorem exec_extractRow_unconfigured {s : State} {g : Nat} (h : s.configured = false) :
    exec (.extractRow g) s = raiseIn (.extractRow g) .notConfigured s := if_pos h

theorem exec_extractRow_not_loaded {s : State} {g : Nat} (hconf : s.configured = true)
    (hcount : s.loadCount.toNat ≠ s.totalWords) :
    exec (.extractRow g) s = raiseIn (.extractRow g) .notLoaded s :=
  (if_neg (by simp [hconf])).trans (if_pos hcount)

theorem exec_extractRow_glyph_range {s : State} {g : Nat} (hl : s.loaded = true) (hg : 128 ≤ g) :
    exec (.extractRow g) s = raiseIn (.extractRow g) .glyphRange s := by
  obtain ⟨hconf, hcount⟩ := loaded_iff.mp hl
  simp only [exec, execExtractRow, hconf, hcount, Bool.true_eq_false, ne_eq, not_true_eq_false, if_false, hg, if_true]

theorem exec_extractRow_row_range {s : State} {g : Nat} (hl : s.loaded = true) (hg : g < 128)
    (hr : s.charHeight ≤ s.arg0.toNat) :
    exec (.extractRow g) s = raiseIn (.extractRow g) .rowRange s := by
  obtain ⟨hconf, hcount⟩ := loaded_iff.mp hl
  simp only [exec, execExtractRow, hconf, hcount, Bool.true_eq_false, ne_eq, not_true_eq_false, if_false,
    Nat.not_le_of_lt hg, hr, if_true]

/-! ### Where glyphs start and where their scanlines cross -/

/-- A glyph starts in the image's first row or in the row halfway down it, within that row's 64 glyphs. -/
theorem startBit_le (s : State) (g : Nat) : startBit s g ≤ 64 * s.charWidth + 32 * s.totalWords := by
  have hcol : g % 64 * s.charWidth ≤ 64 * s.charWidth := Nat.mul_le_mul_right _ (by omega)
  have hhalf : s.charHeight * s.wordsPerLine * 32 ≤ 32 * s.totalWords := by
    calc s.charHeight * s.wordsPerLine * 32
        ≤ s.imgHeight.toNat * s.wordsPerLine * 32 :=
          Nat.mul_le_mul_right _ (Nat.mul_le_mul_right _ (Nat.div_le_self _ 2))
      _ = 32 * s.totalWords := by rw [State.totalWords]; ring
  unfold startBit
  split <;> omega

/-- PBUF has at most 2^24 words (00_scope.md R9), so RESULT holds a start bit whole. -/
theorem trunc32_startBit_toNat {s : State} (g : Nat) (hgeo : s.geometryWf) (hconf : s.configured = true) :
    (trunc32 (startBit s g)).toNat = startBit s g := by
  obtain ⟨-, hinv, -, -⟩ := hgeo
  obtain ⟨-, -, hmax, -, -, hcap⟩ := hinv hconf
  have hstart := startBit_le s g
  have hwords := s.cfg.le_max
  exact trunc32_toNat_of_lt (by omega)

/-- A scanline starts in its word where its glyph's column does, because every image row is a whole number of words. -/
theorem rowBit_mod_32 {s : State} {g : Nat} (r : Nat) (hg : g < 128) :
    rowBit s g r % 32 = g % 64 * s.charWidth % 32 := by
  rw [rowBit_eq r hg, Nat.mul_add_mod']

/-- Windows of a width that divides `m`, laid side by side, do not cross a multiple of `m`. -/
theorem mul_mod_add_le_of_dvd {d m : Nat} (hd : d ∣ m) (hm : 0 < m) (n : Nat) : n * d % m + d ≤ m := by
  obtain ⟨k, rfl⟩ := hd
  have hlast : n % k + 1 ≤ k := Nat.mod_lt n (Nat.pos_of_mul_pos_left hm)
  calc n * d % (d * k) + d = d * (n % k + 1) := by rw [Nat.mul_comm n, Nat.mul_mod_mul_left]; ring
    _ ≤ d * k := Nat.mul_le_mul_left d hlast

/-- Of 64 glyphs of 3 pixels side by side, these four cross a word boundary (42_extractor.md R191). -/
theorem crossing_columns_of_width_three :
    ∀ n < 64, 32 < n * 3 % 32 + 3 ↔ n ∈ [10, 21, 42, 53] := by decide

end Sys2Proof.Machine

open Sys2Proof Sys2Proof.Machine

/-- Settles O36: the span read answers with the stream bits, and by the word boundary its value is a slice of one word or of
two. -/
theorem spanReadsTheBitstream : Obligations.SpanReadsTheBitstream := by
  intro s p w h1 h2 hin
  obtain ⟨v, hspan, hlt, hbits⟩ := span_spec h1 h2 hin
  refine ⟨v, hspan, hlt, trunc32_toNat_of_lt_two_pow h2 hlt, hbits, ?_⟩
  obtain ⟨-, -, -, ⟨hin1, rfl⟩ | ⟨hcross, -, rfl⟩⟩ := span_eq_ok.mp hspan
  · refine ⟨fun _ => ?_, fun hcross => absurd hin1 (Nat.not_le_of_lt hcross)⟩
    rw [spanInWord_eq, Nat.sub_right_comm]
  · exact ⟨fun hin1 => absurd hin1 (Nat.not_le_of_lt hcross),
      fun _ => spanAcross_eq (Nat.mod_lt p (by decide)) hcross h2⟩

/-- Settles O38: the checks of EXTRACT_SPAN in their order, then the span read into RESULT. -/
theorem extractSpanByOperands : Obligations.ExtractSpanByOperands := by
  intro s w
  refine ⟨exec_extractSpan_width, fun h1 h2 hout => ?bounds, fun h1 h2 hin => ?span⟩
  all_goals rw [exec_extractSpan_in_range h1 h2]
  case bounds => exact if_pos hout
  case span => rw [if_neg (Nat.not_lt_of_le hin)]; exact span_into_result h1 h2 hin

/-- Settles O39: the checks of GLYPH_START in their order, then the start bit, which fits RESULT. -/
theorem glyphStartByState : Obligations.GlyphStartByState := by
  intro s g
  refine ⟨exec_glyphStart_unconfigured, fun hconf hg => ?glyphRange,
    fun hconf hg hgeo => ⟨setResult s (startBit s g), ?start, rfl, trunc32_startBit_toNat g hgeo hconf⟩⟩
  all_goals rw [exec_glyphStart_configured hconf]
  case glyphRange => exact if_pos hg
  case start => exact if_neg (Nat.not_le_of_lt hg)

/-- Settles O40: the checks of EXTRACT_ROW in their order; the one for E_BOUNDS cannot fail on a loaded image, so what is left
is the span read of the scanline's place in its logical row. -/
theorem extractRowByState : Obligations.ExtractRowByState := by
  intro s g hgeo
  refine ⟨exec_extractRow_unconfigured, exec_extractRow_not_loaded,
    fun hconf hcount hg => exec_extractRow_glyph_range (loaded_iff.mpr ⟨hconf, hcount⟩) hg,
    fun hconf hcount hg hr => exec_extractRow_row_range (loaded_iff.mpr ⟨hconf, hcount⟩) hg hr,
    fun hconf hcount hg hr => ?pixels⟩
  obtain ⟨-, hinv, -, -⟩ := hgeo
  obtain ⟨-, hmin, hmax, -, -, hcap⟩ := hinv hconf
  have hin : rowBit s g s.arg0.toNat + s.charWidth ≤ 32 * s.cfg.pbufWords :=
    (rowBit_add_charWidth_le hg hr).trans (Nat.mul_le_mul_left 32 hcap)
  rw [exec_extractRow_of_loaded (loaded_iff.mpr ⟨hconf, hcount⟩) hg hr, ← rowBit_eq _ hg]
  exact span_into_result hmin hmax hin

/-- Settles O42: the scanline's place in its word depends on the glyph's column alone; widths that divide 32 tile the word,
and for width 3 the columns are looked through. -/
theorem glyphCrossingCondition : Obligations.GlyphCrossingCondition := by
  intro s g r _ _ hg _
  rw [rowBit_mod_32 r hg]
  refine ⟨Iff.rfl, fun hwidth => ?tiling, fun hwidth => ?three⟩
  case tiling =>
    have hdvd : s.charWidth ∣ 32 := (by decide : ∀ d ∈ [1, 2, 4, 8, 16, 32], d ∣ 32) _ hwidth
    exact mul_mod_add_le_of_dvd hdvd (by decide) (g % 64)
  case three =>
    rw [hwidth]
    exact crossing_columns_of_width_three (g % 64) (Nat.mod_lt g (by decide))
end

section
/-! PROOFS. Errors (60_exceptions.md R201, R202): a decoded command is the word it was decoded from, what one command does to
ERR, and the gate of the error state at the command step. -/

namespace Sys2Proof

/-! ### The word of a decoded command -/

theorem encode_commandOf (c : Word) (op : Opcode) :
    encode (op.commandOf c) = commandWord op.number (c.toNat % 2 ^ op.fieldBits) := by
  cases op <;> simp [encode, Opcode.commandOf, Opcode.number, Opcode.fieldBits, bitsOf_low, Nat.mod_one]

/-- A word is its OPC, its reserved bits and its field: with the reserved bits 0 the first and the last give it back. -/
theorem commandWord_of_fields {op : Opcode} {c : Word} (hopc : bitsOf c 31 28 = op.number)
    (hzero : bitsOf c 27 op.fieldBits = 0) : commandWord op.number (c.toNat % 2 ^ op.fieldBits) = c := by
  refine BitVec.eq_of_toNat_eq ?_
  rw [← hopc, bitsOf_opc, commandWord, BitVec.toNat_ofNat]
  have hc : c.toNat < 2 ^ 32 := c.isLt
  cases op <;> simp only [bitsOf, Opcode.fieldBits] at hzero ⊢ <;> omega

/-- The word that `raise` records for a decoded command is the word the host wrote (30_encoding.md R107; log 10). -/
theorem encode_of_decode_eq_command {c : Word} {i : Instr} (h : decode c = .command i) : encode i = c := by
  obtain ⟨hrow, hi⟩ := decode_eq_command.mp h
  obtain ⟨hopc, hzero⟩ := (and_mask_eq_match_iff_fields i.opcode c).mp hrow
  rw [hi, encode_commandOf, commandWord_of_fields hopc hzero]

end Sys2Proof

namespace Sys2Proof.Machine

/-! ### What one command does to ERR -/

/-- A command raises, clears ERR, or leaves it. -/
theorem exec_err_cases {i : Instr} {s t : State} (h : exec i s = .next t) :
    (∃ e, t = raise e (encode i) s) ∨ (i = .clearErr ∧ t = clearError s) ∨ t.err = s.err := by
  obtain hraise | ⟨-, rfl⟩ | hclear | ⟨-, rfl, -⟩ | ⟨-, -, -, -, rfl⟩ | ⟨_, -, -, rfl⟩ | ⟨-, _, rfl⟩ := exec_cases h
  case inl => exact .inl hraise
  case inr.inr.inl => exact .inr (.inl hclear)
  all_goals exact .inr (.inr rfl)

/-- A command that ends with an error it did not start with has raised it, and done nothing else. -/
theorem exec_raises {i : Instr} {s t : State} (h : exec i s = .next t) (hs : s.err = 0) (ht : t.err ≠ 0) :
    ∃ e, t = raise e (encode i) s := by
  obtain hraise | ⟨-, rfl⟩ | hkeep := exec_err_cases h
  · exact hraise
  · exact absurd rfl ht
  · exact absurd (hkeep.trans hs) ht

/-- The same of a command word: E_ILLEGAL from the decoder, or the decoded command's own error; both record the word. -/
theorem commandStep_raises {v : Word} {s t : State} (h : commandStep v s = .next t) (hs : s.err = 0) (ht : t.err ≠ 0) :
    ∃ e, t = raise e v s := by
  obtain ⟨-, rfl⟩ | ⟨-, -, rfl⟩ | ⟨-, i, hd, hexec⟩ := commandStep_cases h
  · exact absurd hs ht
  · exact ⟨.illegal, rfl⟩
  · rw [← encode_of_decode_eq_command hd]
    exact exec_raises hexec hs ht

/-! ### The command step in the error state -/

theorem commandStep_clearErr (s : State) : commandStep 0x90000000 s = .next (clearError s) :=
  commandStep_command (admitted_clearErr s) (i := .clearErr) (by decide)

theorem commandStep_gated {s : State} {v : Word} (herr : s.err ≠ 0) (hv : v ≠ 0x90000000) : commandStep v s = .next s :=
  commandStep_rejected (admitted_eq_false herr hv)

end Sys2Proof.Machine

open Sys2Proof Sys2Proof.Machine

/-- Settles O8: the step is the bus transaction on the state with the event taken and the write acknowledged; there the gate
stands before the command step alone. -/
theorem stickyErrorGate : Obligations.StickyErrorGate := by
  intro s rest hr herr
  refine ⟨fun v hv hq => ?rejected, fun hq => ?clearErr, fun v hq => ?arg0, fun v hq => ?arg1, fun a hq => step_read hr hq⟩
  all_goals rw [step_write hr hq]
  case rejected => rw [busWrite_cmd]; exact commandStep_gated herr hv
  case clearErr => rw [busWrite_cmd]; exact commandStep_clearErr _
  case arg0 => exact busWrite_arg0 _ v
  case arg1 => exact busWrite_arg1 _ v

/-- Settles O9: `raise` writes two registers; without an error the command step can only raise the decoder's or the command's
error, with the word the host wrote; in the error state it is CLEAR_ERR or nothing. -/
theorem preciseErrors : Obligations.PreciseErrors := by
  refine ⟨fun e v s => rfl, fun v s t hs h ht => commandStep_raises h hs ht, fun v s t hs h => ?gate⟩
  by_cases hv : v = 0x90000000
  · subst hv
    rw [commandStep_clearErr] at h
    cases h
    exact .inr ⟨rfl, rfl⟩
  · rw [commandStep_gated hs hv] at h
    cases h
    exact .inl rfl
end

section
/-! PROOFS. Reset (70_reset_and_hazards.md R230): the step of a reset event, and how each register reads after a reset. -/

namespace Sys2Proof.Machine

/-! ### The registers computed from the state -/

@[simp] theorem applyReset_charWidth (s : State) : (applyReset s).charWidth = 0 := by simp [State.charWidth]

@[simp] theorem applyReset_charHeight (s : State) : (applyReset s).charHeight = 0 := by simp [State.charHeight]

@[simp] theorem applyReset_bytesPerLine (s : State) : (applyReset s).bytesPerLine = 0 := by simp [bytesPerLine_eq]

@[simp] theorem applyReset_wordsPerLine (s : State) : (applyReset s).wordsPerLine = 0 := by simp [wordsPerLine_eq]

@[simp] theorem applyReset_totalWords (s : State) : (applyReset s).totalWords = 0 := by simp [State.totalWords]

/-- LOADED needs CONFIGURED: after a reset LOAD_COUNT and TOTAL_WORDS agree, both 0, yet no image is loaded. -/
@[simp] theorem applyReset_loaded (s : State) : (applyReset s).loaded = false := by simp [State.loaded]

@[simp] theorem applyReset_status (s : State) : (applyReset s).status = 0 := by simp [State.status]

/-! ### The register map -/

/-- PBUF_WORDS fits a register (00_scope.md R9), so CAPACITY reads it unreduced. -/
theorem readReg_capacity_toNat (s : State) : (s.readReg .capacity).toNat = s.cfg.pbufWords :=
  trunc32_toNat_of_lt (lt_of_le_of_lt s.cfg.le_max (by decide))

/-- After a reset only the two constant registers read something other than 0. -/
theorem applyReset_readReg (s : State) {r : Reg} (hid : r ≠ .id) (hcap : r ≠ .capacity) :
    (applyReset s).readReg r = 0 := by
  cases r with
  | id => exact absurd rfl hid
  | capacity => exact absurd rfl hcap
  | _ => simp [State.readReg, trunc32]

/-! ### The step -/

theorem step_reset {s : State} {rest : List BusEvent} (h : s.inbox = .reset :: rest) :
    step s = .next (applyReset (setInbox s rest)) := by
  simp [step, runNext, h, perform]

end Sys2Proof.Machine

open Sys2Proof Sys2Proof.Machine

/-- Settles O18: the step is `applyReset` on the state with the event taken; the frame and PBUF are that update's, and every
register is read in the state it leaves. -/
theorem resetEvent : Obligations.ResetEvent := by
  intro s rest hq
  refine ⟨applyReset (setInbox s rest), step_reset hq, rfl, ?pbuf, ?zero, ?id, ?capacity⟩
  case pbuf => intro a; rw [applyReset_word, setInbox_word]
  case zero => intro r hid hcap; exact applyReset_readReg _ hid hcap
  case id => rfl
  case capacity => rw [readReg_capacity_toNat, applyReset_cfg, setInbox_cfg]
end

section
/-! PROOFS. The decoder and the encoder undo each other (30_encoding.md R101 to R107), and a step on a CMD write runs the
command that its word decodes to (R113). -/

namespace Sys2Proof

/-! ### Encoding and decoding -/

/-- The word of a well-formed command matches its own row (30_encoding.md R102 to R106). -/
theorem encode_matches_row : ∀ i : Instr, i.WellFormed → encode i &&& i.opcode.mask = i.opcode.matchWord
  | .nop => Laws.EncodeMatchesRow.nop
  | .config => Laws.EncodeMatchesRow.config
  | .load => Laws.EncodeMatchesRow.load
  | .writeRaw addr => Laws.EncodeMatchesRow.writeRaw addr
  | .readRaw addr => Laws.EncodeMatchesRow.readRaw addr
  | .bswap => Laws.EncodeMatchesRow.bswap
  | .extractSpan w => Laws.EncodeMatchesRow.extractSpan w
  | .glyphStart g => Laws.EncodeMatchesRow.glyphStart g
  | .extractRow g => Laws.EncodeMatchesRow.extractRow g
  | .clearErr => Laws.EncodeMatchesRow.clearErr

/-- A field that fits the low bits of its word is read back from them. -/
theorem bitsOf_commandWord {opc f hi : Nat} (hhi : hi < 28) (hf : f < 2 ^ (hi + 1)) :
    bitsOf (commandWord opc f) hi 0 = f := by
  have hword : 2 ^ (hi + 1) ∣ 2 ^ 32 := Nat.pow_dvd_pow 2 (by omega)
  have hopc : 2 ^ (hi + 1) ∣ opc * 2 ^ 28 := (Nat.pow_dvd_pow 2 hhi).mul_left opc
  rw [bitsOf_low, commandWord, BitVec.toNat_ofNat, Nat.mod_mod_of_dvd _ hword, Nat.add_mod, Nat.mod_eq_zero_of_dvd hopc,
    Nat.zero_add, Nat.mod_mod, Nat.mod_eq_of_lt hf]

/-- A well-formed command is its row's command with the field read back from its word. -/
theorem commandOf_encode {i : Instr} (h : i.WellFormed) : i.opcode.commandOf (encode i) = i := by
  cases i with
  | writeRaw a => exact congrArg Instr.writeRaw (bitsOf_commandWord (by decide) (of_decide_eq_true h))
  | readRaw a => exact congrArg Instr.readRaw (bitsOf_commandWord (by decide) (of_decide_eq_true h))
  | extractSpan w => exact congrArg Instr.extractSpan (bitsOf_commandWord (by decide) (of_decide_eq_true h))
  | glyphStart g => exact congrArg Instr.glyphStart (bitsOf_commandWord (by decide) (of_decide_eq_true h))
  | extractRow g => exact congrArg Instr.extractRow (bitsOf_commandWord (by decide) (of_decide_eq_true h))
  | _ => rfl

/-- A field read from a word fits the bits it was read from (30_encoding.md R103 to R105). -/
theorem wellFormed_commandOf (c : Word) (op : Opcode) : (op.commandOf c).WellFormed := by
  have hfit : ∀ n, c.toNat % 2 ^ n < 2 ^ n := fun n => Nat.mod_lt _ (Nat.two_pow_pos n)
  cases op <;> simp only [Opcode.commandOf, Instr.WellFormed, Instr.wellFormed, bitsOf_low, decide_eq_true_eq]
  case writeRaw | readRaw => exact hfit 24
  case extractSpan => exact hfit 6
  case glyphStart | extractRow => exact hfit 8

theorem wellFormed_of_decode {c : Word} {i : Instr} (h : decode c = .command i) : i.WellFormed := by
  rw [(decode_eq_command.mp h).2]
  exact wellFormed_commandOf c i.opcode

theorem decode_encode {i : Instr} (h : i.WellFormed) : decode (encode i) = .command i :=
  decode_eq_command.mpr ⟨encode_matches_row i h, (commandOf_encode h).symm⟩

end Sys2Proof

namespace Sys2Proof.Machine

/-! ### A step on a CMD write -/

theorem step_cmd {s : State} {v : Word} {rest : List BusEvent} (hr : s.resetDone = true)
    (h : s.inbox = .transfer (.write Reg.cmd.addr v) :: rest) :
    step s = commandStep v { s with inbox := rest, reply := .writeAck } :=
  (step_write hr h).trans (busWrite_cmd _ v)

theorem admitted_iff {s : State} {v : Word} : admitted v s = true ↔ s.err = 0 ∨ v = 0x90000000 := by
  simp [admitted, State.inError]

end Sys2Proof.Machine

open Sys2Proof Sys2Proof.Machine

/-- Settles O1: the word of a well-formed command matches its row, and the row's field is read back from it. -/
theorem decodeOfEncode : Obligations.DecodeOfEncode := fun _ h => decode_encode h

/-- Settles O2: the fields come from the word's own bits, and with the reserved bits 0 nothing else is in the word. -/
theorem encodeOfDecode : Obligations.EncodeOfDecode :=
  fun _ _ h => ⟨wellFormed_of_decode h, encode_of_decode_eq_command h⟩

/-- Settles O5: ten closed words, each decoded. -/
theorem opcodeMapWordsDecode : Obligations.OpcodeMapWordsDecode := by
  unfold Obligations.OpcodeMapWordsDecode
  decide

/-- Settles O6: the step is the command step of the written word, which the gate lets through to the decoder. -/
theorem stepRunsTheDecodedCommand : Obligations.StepRunsTheDecodedCommand := by
  intro s v i rest hr hq hgate hd
  rw [step_cmd hr hq]
  exact commandStep_command (admitted_iff.mpr hgate) hd

/-- Settles O7: 32 bits hold the encoding whole, so the word placed is the command's own, which decodes to it. -/
theorem stepRunsTheFetchWord : Obligations.StepRunsTheFetchWord := by
  intro s i hr herr hwf
  have hword : BitVec.ofNat 32 ((encode i).toNat % 2 ^ 32) = encode i := by
    rw [Nat.mod_eq_of_lt (encode i).isLt, BitVec.ofNat_toNat, BitVec.setWidth_eq]
  have hq : (s.withFetchWord 32 (encode i).toNat).inbox = .transfer (.write Reg.cmd.addr (encode i)) :: s.inbox := by
    rw [State.withFetchWord, hword]
    rfl
  rw [step_cmd (s := s.withFetchWord 32 (encode i).toNat) hr hq]
  exact commandStep_command (admitted_of_no_error herr _) (decode_encode hwf)
end

section
/-! PROOFS. The step by its event (20_memory.md R93), and the invariants that every step keeps: the configuration (00_scope.md
R9), the canonical form of PBUF, the register invariant of 10_state.md R52, and that the accepted stream words' places have
been written. Each invariant is checked once against every update a transaction can make. -/

namespace Sys2Proof.Machine

/-! ### The step by its event -/

theorem step_idle {s : State} (h : s.inbox = []) : step s = .next (setReply s .idle) := by
  simp [step, runNext, h, idleStep]

theorem step_event {s : State} {e : BusEvent} {rest : List BusEvent} (h : s.inbox = e :: rest) :
    step s = perform e (setInbox s rest) := by
  simp [step, runNext, h]

/-- A cut transaction is held to what it would have done, or to nothing where it would not complete. -/
theorem perform_resetDuring {s : State} (x : Transaction) (hr : s.resetDone = true) :
    ∃ after, (transfer x s = .next after ∨ after = s) ∧ perform (.resetDuring x) s = .next (cutByReset s after) := by
  simp only [perform, hr, if_true]
  split
  next after hx => exact ⟨after, .inl hx, rfl⟩
  all_goals exact ⟨s, .inr rfl, rfl⟩

theorem step_before_reset {s : State} {x : Transaction} {rest : List BusEvent} (hr : s.resetDone = false)
    (h : s.inbox = .transfer x :: rest ∨ s.inbox = .resetDuring x :: rest) :
    step s = .refused .transactionBeforeReset := by
  rcases h with h | h <;> simp [step_event h, perform, hr]

/-! ### What survives every update -/

/-- `P` survives every update that a transaction makes of the state, where the command that makes it has passed its checks. -/
structure KeptByUpdates (P : State → Prop) : Prop where
  setReply : ∀ {s} r, P s → P (setReply s r)
  setInbox : ∀ {s} q, P s → P (setInbox s q)
  setArg0 : ∀ {s} v, P s → P (setArg0 s v)
  setArg1 : ∀ {s} v, P s → P (setArg1 s v)
  raise : ∀ {s} e c, P s → P (raise e c s)
  clearError : ∀ {s}, P s → P (clearError s)
  setResult : ∀ {s} v, P s → P (setResult s v)
  acceptGeometry : ∀ {s}, P s → s.arg0.toNat % 64 = 0 → 1 ≤ s.arg0.toNat / 64 → s.arg0.toNat / 64 ≤ 32 →
    2 * (s.arg0.toNat / 64) * s.arg1.toNat ≤ s.cfg.pbufWords → P (acceptGeometry s)
  load : ∀ {s} v, P s → s.configured = true → s.loadCount.toNat < s.totalWords →
    dest s s.loadCount.toNat < s.cfg.pbufWords →
    P (advanceLoad s.loadCount.toNat (storeWord s (dest s s.loadCount.toNat) v))
  storeWord : ∀ {s a} v, P s → a < s.cfg.pbufWords → P (storeWord s a v)

section
variable {P : State → Prop} {s t : State}

theorem exec_keeps (hP : KeptByUpdates P) (hs : P s) {i : Instr} (h : exec i s = .next t) : P t := by
  obtain ⟨e, rfl⟩ | ⟨-, rfl⟩ | ⟨-, rfl⟩ | ⟨-, rfl, halign, hmin, hmax, hcap⟩ | ⟨-, hconf, hcount, hin, rfl⟩ |
    ⟨a, -, ha, rfl⟩ | ⟨-, v, rfl⟩ := exec_cases h
  · exact hP.raise e _ hs
  · exact hs
  · exact hP.clearError hs
  · exact hP.acceptGeometry hs halign hmin hmax hcap
  · exact hP.load _ hs hconf hcount hin
  · exact hP.storeWord _ hs ha
  · exact hP.setResult v hs

theorem commandStep_keeps (hP : KeptByUpdates P) (hs : P s) {v : Word} (h : commandStep v s = .next t) : P t := by
  obtain ⟨-, rfl⟩ | ⟨-, -, rfl⟩ | ⟨-, i, -, hexec⟩ := commandStep_cases h
  · exact hs
  · exact hP.raise _ _ hs
  · exact exec_keeps hP hs hexec

theorem transfer_keeps (hP : KeptByUpdates P) (hs : P s) {x : Transaction} (h : transfer x s = .next t) : P t := by
  obtain ⟨a, -, rfl⟩ | ⟨a, v, -, hw⟩ := transfer_cases h
  case inl => exact hP.setReply _ hs
  case inr =>
    have hack : P (setReply s .writeAck) := hP.setReply _ hs
    obtain rfl | ⟨-, rfl⟩ | ⟨-, rfl⟩ | ⟨-, hcmd⟩ := busWrite_cases hw
    · exact hack
    · exact hP.setArg0 v hack
    · exact hP.setArg1 v hack
    · exact commandStep_keeps hP hack hcmd

/-- An invariant of the registers: it need not hold before the first reset, and every reset, cutting or not, restores it. -/
theorem step_keeps_registers (hP : KeptByUpdates P) (hreset : ∀ u, P (applyReset u)) (hs : s.resetDone = true → P s)
    (h : step s = .next t) (ht : t.resetDone = true) : P t := by
  obtain ⟨-, rfl⟩ | ⟨rest, -, rfl⟩ | ⟨x, rest, -, hr, hx⟩ | ⟨x, rest, after, -, -, -, rfl⟩ := step_cases h
  · exact hP.setReply _ (hs ht)
  · exact hreset _
  · exact transfer_keeps hP (hP.setInbox rest (hs hr)) hx
  · exact hreset _

end

/-! ### The configuration -/

theorem cfg_kept (c : Config) : KeptByUpdates (fun s => s.cfg = c) where
  setReply _ h := h
  setInbox _ h := h
  setArg0 _ h := h
  setArg1 _ h := h
  raise _ _ h := h
  clearError h := h
  setResult _ h := h
  acceptGeometry h _ _ _ _ := h
  load _ h _ _ _ := h
  storeWord _ h _ := h

theorem transfer_cfg {x : Transaction} {s t : State} (h : transfer x s = .next t) : t.cfg = s.cfg :=
  transfer_keeps (cfg_kept s.cfg) rfl h

theorem step_cfg {s t : State} (h : step s = .next t) : t.cfg = s.cfg := by
  obtain ⟨-, rfl⟩ | ⟨rest, -, rfl⟩ | ⟨x, rest, -, -, hx⟩ | ⟨x, rest, after, -, -, -, rfl⟩ := step_cases h
  · rfl
  · rfl
  · exact (transfer_cfg hx).trans (setInbox_cfg s rest)
  · rfl

/-! ### The canonical form of PBUF -/

theorem memoryWf_kept : KeptByUpdates State.memoryWf where
  setReply _ h := h
  setInbox _ h := h
  setArg0 _ h := h
  setArg1 _ h := h
  raise _ _ h := h
  clearError h := h
  setResult _ h := h
  acceptGeometry h _ _ _ _ := h
  load v h _ _ hin := wf_store h hin v
  storeWord v h ha := wf_store h ha v

/-- Whichever PBUF the cut leaves, it is canonical, because the cut transaction kept the configuration. -/
theorem cutByReset_memoryWf {s after : State} (hcfg : after.cfg = s.cfg) (hs : s.memoryWf) (ha : after.memoryWf) :
    (cutByReset s after).memoryWf := by
  rw [State.memoryWf, hcfg] at ha
  rw [State.memoryWf, cutByReset, applyReset_cfg, applyReset_pbuf]
  split
  · exact ha
  · exact hs

theorem step_keeps_memoryWf {s t : State} (hs : s.memoryWf) (h : step s = .next t) : t.memoryWf := by
  obtain ⟨-, rfl⟩ | ⟨rest, -, rfl⟩ | ⟨x, rest, -, -, hx⟩ | ⟨x, rest, after, -, -, hx, rfl⟩ := step_cases h
  · exact hs
  · exact hs
  · exact transfer_keeps memoryWf_kept (memoryWf_kept.setInbox rest hs) hx
  · obtain hx | rfl := hx
    · exact cutByReset_memoryWf (transfer_cfg hx) hs (transfer_keeps memoryWf_kept (memoryWf_kept.setInbox rest hs) hx)
    · exact cutByReset_memoryWf rfl hs hs

/-! ### The register invariant -/

/-- An accepted geometry is in range and fits PBUF, and no word of it is loaded (40_control.md R141). -/
theorem geometryWf_acceptGeometry {s : State} (hs : s.geometryWf) (halign : s.arg0.toNat % 64 = 0)
    (hmin : 1 ≤ s.arg0.toNat / 64) (hmax : s.arg0.toNat / 64 ≤ 32)
    (hcap : 2 * (s.arg0.toNat / 64) * s.arg1.toNat ≤ s.cfg.pbufWords) : (acceptGeometry s).geometryWf := by
  have hwidth : (acceptGeometry s).charWidth = s.arg0.toNat / 64 := rfl
  have hwords : (acceptGeometry s).wordsPerLine = 2 * (s.arg0.toNat / 64) := wordsPerLine_eq _
  obtain ⟨-, -, -, herr⟩ := hs
  refine ⟨fun h => absurd h (by simp), fun _ => ⟨halign, ?_, ?_, ?_, ?_, ?_⟩, Nat.zero_le _, herr⟩
  · rwa [hwidth]
  · rwa [hwidth]
  · rw [hwords]; omega
  · rw [hwords]; omega
  · rwa [State.totalWords, hwords]

theorem trunc32_toNat_le (n : Nat) : (trunc32 n).toNat ≤ n := by
  rw [trunc32, BitVec.toNat_ofNat]
  exact Nat.mod_le n _

theorem geometryWf_kept : KeptByUpdates State.geometryWf where
  setReply _ h := h
  setInbox _ h := h
  setArg0 _ h := h
  setArg1 _ h := h
  raise := fun e _ ⟨hzero, hinv, hcount, _⟩ => ⟨hzero, hinv, hcount, code_le e⟩
  clearError := fun ⟨hzero, hinv, hcount, _⟩ => ⟨hzero, hinv, hcount, Nat.zero_le _⟩
  setResult _ h := h
  acceptGeometry h := geometryWf_acceptGeometry h
  load := by
    rintro s v ⟨-, hinv, -, herr⟩ hconf hcount -
    exact ⟨fun h => absurd (hconf.symm.trans h) (by decide), hinv, (trunc32_toNat_le _).trans hcount, herr⟩
  storeWord _ h _ := h

theorem geometryWf_applyReset (s : State) : (applyReset s).geometryWf := by
  simp [State.geometryWf]

/-! ### The accepted stream words' places -/

theorem loadedWritten_of_loadCount_zero {s : State} (h : s.loadCount = 0) : s.loadedWritten := by
  simp [State.loadedWritten, h]

/-- A LOAD writes the place of the word it accepts, and the places written before stay written. -/
theorem loadedWritten_kept : KeptByUpdates State.loadedWritten where
  setReply _ h := h
  setInbox _ h := h
  setArg0 _ h := h
  setArg1 _ h := h
  raise _ _ h := h
  clearError h := h
  setResult _ h := h
  acceptGeometry _ _ _ _ _ := loadedWritten_of_loadCount_zero rfl
  load := by
    intro s v hs _ _ _ k hk
    have hle : k < s.loadCount.toNat + 1 := hk.trans_le (trunc32_toNat_le _)
    rw [advanceLoad_written, storeWord_written, advanceLoad_dest, storeWord_dest]
    obtain hlt | rfl := Nat.lt_succ_iff_lt_or_eq.mp hle
    · rw [hs k hlt, Bool.or_true]
    · rw [decide_eq_true rfl, Bool.true_or]
  storeWord := by
    intro s a v hs _ k hk
    rw [storeWord_written, storeWord_dest, hs k hk, Bool.or_true]

end Sys2Proof.Machine

open Sys2Proof Sys2Proof.Machine

/-- Settles O49: the canonical form and the register invariant are each kept by every update, and resets restore the latter. -/
theorem stepKeepsSound : Obligations.StepKeepsSound :=
  fun _ _ ⟨hmem, hgeo⟩ h =>
    ⟨step_keeps_memoryWf hmem h, step_keeps_registers geometryWf_kept geometryWf_applyReset hgeo h⟩

/-- Settles O51: every update keeps the places written, and after a reset no stream word has been accepted. -/
theorem stepKeepsLoadedWritten : Obligations.StepKeepsLoadedWritten :=
  fun _ _ _ hs h =>
    step_keeps_registers loadedWritten_kept (fun _ => loadedWritten_of_loadCount_zero rfl) hs h

/-- Settles O53: no update writes the configuration, and a cut keeps the one it found. -/
theorem configurationIsConstant : Obligations.ConfigurationIsConstant := fun _ _ h => step_cfg h

/-- Settles O50: the state after reset is the reset of itself; before the first reset the invariants of registers ask nothing,
and no word of PBUF is listed. -/
theorem resetIsSound : Obligations.ResetIsSound :=
  ⟨⟨rfl, fun _ => geometryWf_applyReset State.reset⟩, loadedWritten_of_loadCount_zero rfl,
    fun _ _ => ⟨⟨rfl, fun h => absurd h Bool.false_ne_true⟩, fun h => absurd h Bool.false_ne_true⟩⟩

/-- Settles O17: the empty inbox makes the step `idleStep`. -/
theorem idleStepHoldsState : Obligations.IdleStepHoldsState := fun _ h => step_idle h

/-- Settles O21: `perform` refuses both kinds of transaction while `resetDone` is false. -/
theorem transactionBeforeResetRefused : Obligations.TransactionBeforeResetRefused :=
  fun _ _ _ hr h => step_before_reset hr h
end

section
/-! PROOFS. What one command leaves unchanged (10_state.md R39 to R51), the errors it can record (60_exceptions.md R200 to R204),
and what a reset that cuts a transaction leaves (70_reset_and_hazards.md R232). -/

namespace Sys2Proof.Machine

/-! ### The frame of one command -/

theorem exec_keeps_operands {i : Instr} {s t : State} (h : exec i s = .next t) :
    t.arg0 = s.arg0 ∧ t.arg1 = s.arg1 ∧ t.cfg = s.cfg ∧ t.inbox = s.inbox ∧ t.reply = s.reply ∧
      t.resetDone = s.resetDone ∧ t.cutCount = s.cutCount := by
  obtain ⟨e, rfl⟩ | ⟨-, rfl⟩ | ⟨-, rfl⟩ | ⟨-, rfl, -⟩ | ⟨-, -, -, -, rfl⟩ | ⟨a, -, -, rfl⟩ | ⟨-, v, rfl⟩ := exec_cases h
  all_goals exact ⟨rfl, rfl, rfl, rfl, rfl, rfl, rfl⟩

/-- Only the commands that compute a value write RESULT, and they write nothing else. -/
theorem exec_result {i : Instr} {s t : State} (h : exec i s = .next t) :
    t.result = s.result ∨
      i.opcode ∈ [Opcode.readRaw, .bswap, .extractSpan, .glyphStart, .extractRow] ∧ t = { s with result := t.result } := by
  obtain ⟨e, rfl⟩ | ⟨-, rfl⟩ | ⟨-, rfl⟩ | ⟨-, rfl, -⟩ | ⟨-, -, -, -, rfl⟩ | ⟨a, -, -, rfl⟩ | ⟨hop, v, rfl⟩ := exec_cases h
  case inr.inr.inr.inr.inr.inr => exact .inr ⟨hop, rfl⟩
  all_goals exact .inl rfl

/-- Only the two storing commands change PBUF, each at the one word it stores to. -/
theorem exec_pbuf {i : Instr} {s t : State} (h : exec i s = .next t) :
    t.pbuf = s.pbuf ∨
      ∃ a v, t.pbuf = Memory.store s.pbuf a v ∧ (i = .load ∧ a = dest s s.loadCount.toNat ∨ i = .writeRaw a) := by
  obtain ⟨e, rfl⟩ | ⟨-, rfl⟩ | ⟨-, rfl⟩ | ⟨-, rfl, -⟩ | ⟨hi, -, -, -, rfl⟩ | ⟨a, hi, -, rfl⟩ | ⟨-, v, rfl⟩ := exec_cases h
  case inr.inr.inr.inr.inl => exact .inr ⟨_, _, rfl, .inl ⟨hi, rfl⟩⟩
  case inr.inr.inr.inr.inr.inl => exact .inr ⟨a, _, rfl, .inr hi⟩
  all_goals exact .inl rfl

theorem word_of_pbuf {s t : State} (h : t.pbuf = s.pbuf) (b : Nat) : t.word b = s.word b := by
  rw [State.word, State.word, h]

theorem word_of_pbuf_store {s t : State} {a b : Nat} {v : Word} (h : t.pbuf = Memory.store s.pbuf a v) (hb : b ≠ a) :
    t.word b = s.word b := by
  rw [State.word, State.word, h, lookup_store, if_neg hb]

/-- A command leaves every word of PBUF but the one it stores to. -/
theorem exec_word {i : Instr} {s t : State} (h : exec i s = .next t) {b : Nat}
    (hload : i = .load → b ≠ dest s s.loadCount.toNat) (hraw : ∀ addr, i = .writeRaw addr → b ≠ addr) :
    t.word b = s.word b := by
  obtain hkeep | ⟨a, v, hstore, ⟨hi, rfl⟩ | hi⟩ := exec_pbuf h
  · exact word_of_pbuf hkeep b
  · exact word_of_pbuf_store hstore (hload hi)
  · exact word_of_pbuf_store hstore (hraw a hi)

theorem commandStep_word {v : Word} {s t : State} (h : commandStep v s = .next t) {b : Nat}
    (hload : decode v = .command .load → b ≠ dest s s.loadCount.toNat)
    (hraw : ∀ addr, decode v = .command (.writeRaw addr) → b ≠ addr) : t.word b = s.word b := by
  obtain ⟨-, rfl⟩ | ⟨-, -, rfl⟩ | ⟨-, i, hd, hexec⟩ := commandStep_cases h
  · rfl
  · rfl
  · exact exec_word hexec (fun hi => hload (hi ▸ hd)) (fun addr hi => hraw addr (hi ▸ hd))

/-- A transaction other than a CMD write changes the operand registers at most. -/
theorem transfer_other {s t : State} {x : Transaction} (hx : ∀ v, x ≠ .write Reg.cmd.addr v) (h : transfer x s = .next t) :
    ∃ a0 a1 r, t = { s with arg0 := a0, arg1 := a1, reply := r } := by
  obtain ⟨a, rfl, rfl⟩ | ⟨a, v, rfl, hw⟩ := transfer_cases h
  case inl => exact ⟨_, _, _, rfl⟩
  case inr =>
    obtain rfl | ⟨-, rfl⟩ | ⟨-, rfl⟩ | ⟨rfl, -⟩ := busWrite_cases hw
    · exact ⟨_, _, _, rfl⟩
    · exact ⟨_, _, _, rfl⟩
    · exact ⟨_, _, _, rfl⟩
    · exact absurd rfl (hx v)

/-! ### The geometry and LOAD_COUNT -/

theorem configured_kept : KeptByUpdates (fun s => s.configured = true) where
  setReply _ h := h
  setInbox _ h := h
  setArg0 _ h := h
  setArg1 _ h := h
  raise _ _ h := h
  clearError h := h
  setResult _ h := h
  acceptGeometry _ _ _ _ _ := rfl
  load _ h _ _ _ := h
  storeWord _ h _ := h

/-- `t` has the geometry of `s`. -/
structure SameGeometry (s t : State) : Prop where
  configured : t.configured = s.configured
  imgWidth : t.imgWidth = s.imgWidth
  imgHeight : t.imgHeight = s.imgHeight

theorem trunc32_toNat_succ (v : Word) : trunc32 (v.toNat + 1) = v + 1 := by
  simp [trunc32, BitVec.ofNat_add]

/-- Of the commands only CONFIG writes the geometry, and of the others only an accepted LOAD counts. -/
theorem exec_geometry {i : Instr} {s t : State} (h : exec i s = .next t) (hi : i ≠ .config) :
    SameGeometry s t ∧ (t.loadCount = s.loadCount ∨ i = .load ∧ t.loadCount = s.loadCount + 1 ∧ t.err = s.err) := by
  obtain ⟨e, rfl⟩ | ⟨-, rfl⟩ | ⟨-, rfl⟩ | ⟨rfl, -⟩ | ⟨hload, -, -, -, rfl⟩ | ⟨a, -, -, rfl⟩ | ⟨-, v, rfl⟩ := exec_cases h
  case inr.inr.inr.inl => exact absurd rfl hi
  case inr.inr.inr.inr.inl => exact ⟨⟨rfl, rfl, rfl⟩, .inr ⟨hload, trunc32_toNat_succ _, rfl⟩⟩
  all_goals exact ⟨⟨rfl, rfl, rfl⟩, .inl rfl⟩

/-- The same of a command word; a LOAD that is let through starts without an error. -/
theorem commandStep_geometry {v : Word} {s t : State} (h : commandStep v s = .next t) (hv : v ≠ 0x10000000) :
    SameGeometry s t ∧
      (t.loadCount = s.loadCount ∨ t.loadCount = s.loadCount + 1 ∧ s.err = 0 ∧ t.err = 0 ∧ v = 0x20000000) := by
  obtain ⟨-, rfl⟩ | ⟨-, -, rfl⟩ | ⟨hadm, i, hd, hexec⟩ := commandStep_cases h
  · exact ⟨⟨rfl, rfl, rfl⟩, .inl rfl⟩
  · exact ⟨⟨rfl, rfl, rfl⟩, .inl rfl⟩
  · have hword := encode_of_decode_eq_command hd
    have hconfig : i ≠ .config := by
      rintro rfl
      exact hv hword.symm
    obtain ⟨hsame, hkeep | ⟨rfl, hcount, herr⟩⟩ := exec_geometry hexec hconfig
    · exact ⟨hsame, .inl hkeep⟩
    · obtain rfl : v = 0x20000000 := hword.symm
      have hs : s.err = 0 := (admitted_iff.mp hadm).resolve_right (by decide)
      exact ⟨hsame, .inr ⟨hcount, hs, herr.trans hs, rfl⟩⟩

/-- A transaction is a CMD write or touches neither the geometry nor LOAD_COUNT. -/
theorem transfer_geometry {x : Transaction} {s t : State} (h : transfer x s = .next t)
    (hx : x ≠ .write Reg.cmd.addr 0x10000000) :
    SameGeometry s t ∧
      (t.loadCount = s.loadCount ∨
        t.loadCount = s.loadCount + 1 ∧ s.err = 0 ∧ t.err = 0 ∧ x = .write Reg.cmd.addr 0x20000000) := by
  by_cases hcmd : ∃ v, x = .write Reg.cmd.addr v
  · obtain ⟨v, rfl⟩ := hcmd
    rw [transfer_cmd] at h
    obtain ⟨⟨hconf, hwidth, hheight⟩, hkeep | ⟨hcount, hs, ht, rfl⟩⟩ := commandStep_geometry h (ne_of_apply_ne _ hx)
    · exact ⟨⟨hconf, hwidth, hheight⟩, .inl hkeep⟩
    · exact ⟨⟨hconf, hwidth, hheight⟩, .inr ⟨hcount, hs, ht, rfl⟩⟩
  · obtain ⟨a0, a1, r, rfl⟩ := transfer_other (not_exists.mp hcmd) h
    exact ⟨⟨rfl, rfl, rfl⟩, .inl rfl⟩

/-! ### The errors of one command -/

/-- The errors a command can raise, in the order of its checks (60_exceptions.md R200). -/
def errorsOf : Instr → List ErrorCode
  | .nop | .bswap | .clearErr => []
  | .config => [.geomAlign, .widthRange, .capacity]
  | .load => [.notConfigured, .loadOverrun]
  | .writeRaw _ | .readRaw _ => [.bounds]
  | .extractSpan _ => [.widthRange, .bounds]
  | .glyphStart _ => [.notConfigured, .glyphRange]
  | .extractRow _ => [.notConfigured, .notLoaded, .glyphRange, .rowRange, .bounds]

/-- The outcome keeps ERR, or records one of the errors `es`. -/
def RaisesOnly (es : List ErrorCode) (s : State) (o : Host.Outcome State Fault Refusal) : Prop :=
  ∀ t, o = .next t → t.err = s.err ∨ t.err ∈ es.map ErrorCode.code

section
variable {es : List ErrorCode} {s : State}

/-- One check of a command raises the first error of its list, and the rest of the command the others. -/
theorem raisesOnly_check {i : Instr} {e : ErrorCode} {c : Prop} {d : Decidable c} {o : Host.Outcome State Fault Refusal}
    (ho : RaisesOnly es s o) : RaisesOnly (e :: es) s (@ite _ c d (raiseIn i e s) o) := by
  intro t h
  split at h
  · cases h
    exact .inr List.mem_cons_self
  · exact (ho t h).imp_right (List.mem_cons_of_mem _)

theorem raisesOnly_next {t : State} (ht : t.err = s.err) : RaisesOnly es s (.next t) := by
  intro u h
  cases h
  exact .inl ht

theorem raisesOnly_finish {r : Except Fault State} (hr : ∀ t, r = .ok t → t.err = s.err) : RaisesOnly es s (finish r) :=
  fun t h => .inl (hr t (finish_eq_next.mp h))

theorem raisesOnly_setResult (r : Except Fault Nat) : RaisesOnly es s (finish (r.map (setResult s))) :=
  raisesOnly_finish fun t h => by
    obtain ⟨v, -, rfl⟩ := map_eq_ok.mp h
    rfl

end

/-- Every command but CLEAR_ERR is its checks, each with its error, and then an update that keeps ERR. -/
theorem exec_raisesOnly {i : Instr} (hi : i ≠ .clearErr) (s : State) : RaisesOnly (errorsOf i) s (exec i s) := by
  cases i with
  | clearErr => exact absurd rfl hi
  | nop => exact raisesOnly_next rfl
  | bswap => exact raisesOnly_next rfl
  | config => exact raisesOnly_check (raisesOnly_check (raisesOnly_check (raisesOnly_next rfl)))
  | load =>
    refine raisesOnly_check (raisesOnly_check (raisesOnly_finish fun t h => ?_))
    obtain ⟨u, hwrite, rfl⟩ := map_eq_ok.mp h
    obtain ⟨-, rfl⟩ := memWrite_eq_ok.mp hwrite
    rfl
  | writeRaw addr =>
    refine raisesOnly_check (raisesOnly_finish fun t h => ?_)
    obtain ⟨-, rfl⟩ := memWrite_eq_ok.mp h
    rfl
  | readRaw addr =>
    refine raisesOnly_check (raisesOnly_finish fun t h => ?_)
    obtain ⟨v, -, rfl⟩ := map_eq_ok.mp h
    rfl
  | extractSpan w => exact raisesOnly_check (raisesOnly_check (raisesOnly_setResult _))
  | glyphStart g => exact raisesOnly_check (raisesOnly_check (raisesOnly_next rfl))
  | extractRow g =>
    exact raisesOnly_check (raisesOnly_check (raisesOnly_check (raisesOnly_check (raisesOnly_check
      (raisesOnly_setResult _)))))

/-! ### The error state -/

/-- In the error state a transaction is CLEAR_ERR's word or keeps ERR. -/
theorem transfer_in_error {x : Transaction} {s t : State} (herr : s.err ≠ 0) (h : transfer x s = .next t) :
    t.err = s.err ∨ x = .write Reg.cmd.addr 0x90000000 ∧ t.err = 0 := by
  by_cases hcmd : ∃ v, x = .write Reg.cmd.addr v
  · obtain ⟨v, rfl⟩ := hcmd
    rw [transfer_cmd] at h
    by_cases hv : v = 0x90000000
    · subst hv
      rw [commandStep_clearErr] at h
      cases h
      exact .inr ⟨rfl, rfl⟩
    · rw [commandStep_gated (s := setReply s .writeAck) herr hv] at h
      cases h
      exact .inl rfl
  · exact .inl (transfer_keeps_error (not_exists.mp hcmd) h).1

/-! ### A reset that cuts a transaction -/

/-- The cut resets every register and leaves PBUF and the count of cuts to the cut. -/
theorem cutByReset_eq {s : State} (after : State) (hr : s.resetDone = true) :
    cutByReset s after = { s with
      reply := .idle, arg0 := 0, arg1 := 0, result := 0, err := 0, errCmd := 0, configured := false, imgWidth := 0,
      imgHeight := 0, loadCount := 0, pbuf := (cutByReset s after).pbuf, cutCount := (cutByReset s after).cutCount } := by
  simp [cutByReset, applyReset, hr]

/-- The two choices of the cut (93_implementation_defined.md U9). -/
theorem cutByReset_pbuf (s after : State) :
    (cutByReset s after).pbuf = s.pbuf ∨ (cutByReset s after).pbuf = after.pbuf := by
  rw [cutByReset, applyReset_pbuf]
  split
  · exact .inr rfl
  · exact .inl rfl

theorem cutByReset_pbuf_of_eq {s after : State} (h : after.pbuf = s.pbuf) : (cutByReset s after).pbuf = s.pbuf := by
  obtain hkeep | hcommit := cutByReset_pbuf s after
  · exact hkeep
  · exact hcommit.trans h

theorem cutByReset_word_of_eq {s after : State} {b : Nat} (h : after.word b = s.word b) :
    (cutByReset s after).word b = s.word b := by
  obtain hkeep | hcommit := cutByReset_pbuf s after
  · exact word_of_pbuf hkeep b
  · exact (word_of_pbuf hcommit b).trans h

end Sys2Proof.Machine

open Sys2Proof Sys2Proof.Machine

/-- Settles O45: no update a command makes touches these fields. -/
theorem commandsKeepOperands : Obligations.CommandsKeepOperands := fun _ _ _ h => exec_keeps_operands h

/-- Settles O46: a command leaves RESULT or is a result command that wrote it alone. -/
theorem resultWrittenByResultCommands : Obligations.ResultWrittenByResultCommands :=
  fun _ _ _ h hne => (exec_result h).resolve_left hne

/-- Settles O47: PBUF changes by one store, which is LOAD's or WRITE_RAW's. -/
theorem pbufWrittenByLoadAndWriteRaw : Obligations.PbufWrittenByLoadAndWriteRaw := by
  intro i s t h
  refine ⟨fun hload hraw => ?pbuf, fun hi b hb => exec_word h (fun _ => hb) (by simp [hi]),
    fun addr hi b hb => exec_word h (by simp [hi]) (by simpa [hi] using hb)⟩
  case pbuf =>
    obtain hkeep | ⟨a, v, -, ⟨rfl, -⟩ | rfl⟩ := exec_pbuf h
    · exact hkeep
    · exact absurd rfl hload
    · exact absurd rfl hraw

/-- Settles O48: without a reset the step is idle or one transaction, of which only CONFIG's word writes the geometry. -/
theorem geometryChangesByConfigOrReset : Obligations.GeometryChangesByConfigOrReset := by
  intro s t h hreset hcut
  obtain ⟨-, rfl⟩ | ⟨rest, hq, -⟩ | ⟨x, rest, hq, -, hx⟩ | ⟨x, rest, -, hq, -⟩ := step_cases h
  · exact ⟨id, fun _ => ⟨rfl, rfl, rfl, .inl rfl⟩⟩
  · exact absurd hq (hreset rest)
  · refine ⟨fun hconf => transfer_keeps configured_kept (s := setInbox s rest) hconf hx, fun hconfig => ?_⟩
    have hne : x ≠ .write Reg.cmd.addr 0x10000000 := by
      rintro rfl
      exact hconfig rest hq
    obtain ⟨⟨hconf, hwidth, hheight⟩, hkeep | ⟨hcount, hs, ht, rfl⟩⟩ := transfer_geometry hx hne
    · exact ⟨hconf, hwidth, hheight, .inl hkeep⟩
    · exact ⟨hconf, hwidth, hheight, .inr ⟨hcount, hs, ht, rest, hq⟩⟩
  · exact absurd hq (hcut x rest)

/-- Settles O10: without an error before, what a command records is the error of one of its checks. -/
theorem errorsOfEachCommand : Obligations.ErrorsOfEachCommand := by
  intro i s t hs h ht
  by_cases hi : i = .clearErr
  · subst hi
    cases h
    exact absurd rfl ht
  · have hmem := (exec_raisesOnly hi s t h).resolve_left fun hkeep => ht (hkeep.trans hs)
    cases i <;> exact hmem

/-- Settles O11: the idle step keeps ERR, and of the transactions only CLEAR_ERR's word does not. -/
theorem onlyClearErrOrResetLeavesAnError : Obligations.OnlyClearErrOrResetLeavesAnError := by
  intro s t herr h hne
  obtain ⟨-, rfl⟩ | ⟨rest, hq, -⟩ | ⟨x, rest, hq, -, hx⟩ | ⟨x, rest, -, hq, -⟩ := step_cases h
  · exact absurd rfl hne
  · exact .inl ⟨rest, hq⟩
  · obtain hkeep | ⟨rfl, hclear⟩ := transfer_in_error (s := setInbox s rest) herr hx
    · exact absurd hkeep hne
    · exact .inr (.inr ⟨rest, hq, hclear⟩)
  · exact .inr (.inl ⟨x, rest, hq⟩)

/-- Settles O20: the cut is held to the state the transaction would have left, or to the state before, and what it leaves of
PBUF is the one's or the other's. -/
theorem resetCutsTransaction : Obligations.ResetCutsTransaction := by
  intro s x rest hr hq
  obtain ⟨after, hafter, hperform⟩ := perform_resetDuring (s := setInbox s rest) x hr
  refine ⟨_, (step_event hq).trans hperform, cutByReset_eq after hr, ?choice, fun hx => ?other, ?word⟩
  case choice =>
    obtain hkeep | hcommit := cutByReset_pbuf (setInbox s rest) after
    · exact .inl hkeep
    · obtain hx | rfl := hafter
      · exact .inr ⟨after, hx, hcommit⟩
      · exact .inl hcommit
  case other =>
    refine cutByReset_pbuf_of_eq (s := setInbox s rest) ?_
    obtain hafter | rfl := hafter
    · obtain ⟨a0, a1, r, rfl⟩ := transfer_other hx hafter
      rfl
    · rfl
  case word =>
    rintro v rfl b hload hraw
    refine cutByReset_word_of_eq (s := setInbox s rest) ?_
    obtain hafter | rfl := hafter
    · rw [transfer_cmd] at hafter
      exact commandStep_word hafter hload hraw
    · rfl
end

section
/-! PROOFS. The register map in closed form (10_state.md R31 to R50), PBUF as its contents (20_memory.md R70), reading after a
WRITE_RAW (70_reset_and_hazards.md R238), which words a span and a glyph scanline read (42_extractor.md R182, R189), and that
in a sound state no command stops the block (30_encoding.md R114). -/

namespace Sys2Proof.Machine

/-! ### The register map -/

theorem trunc32_toNat_of_le {n : Nat} {v : Word} (h : n ≤ v.toNat) : (trunc32 n).toNat = n :=
  trunc32_toNat_of_lt (h.trans_lt v.isLt)

theorem charWidth_le (s : State) : s.charWidth ≤ s.imgWidth.toNat := Nat.div_le_self _ 64

theorem charHeight_le (s : State) : s.charHeight ≤ s.imgHeight.toNat := Nat.div_le_self _ 2

theorem bytesPerLine_le (s : State) : s.bytesPerLine ≤ s.imgWidth.toNat := by
  rw [bytesPerLine_eq, State.charWidth, charWidthOf]
  omega

theorem wordsPerLine_le (s : State) : s.wordsPerLine ≤ s.imgWidth.toNat := by
  rw [wordsPerLine_eq, State.charWidth, charWidthOf]
  omega

/-- The image of a reachable state fits PBUF, whose size fits a register (00_scope.md R9); without a geometry it is empty. -/
theorem totalWords_le_pbufWords {s : State} (h : s.geometryWf) : s.totalWords ≤ s.cfg.pbufWords := by
  obtain ⟨hzero, hinv, -, -⟩ := h
  cases hconf : s.configured with
  | true =>
    obtain ⟨-, -, -, -, -, hcap⟩ := hinv hconf
    exact hcap
  | false =>
    obtain ⟨-, hheight, -⟩ := hzero hconf
    simp [State.totalWords, hheight]

/-! ### PBUF as its contents -/

theorem lookup_head (a : Nat) (v : Word) (m : Memory) : Memory.lookup ((a, v) :: m) a = some v := if_pos rfl

theorem lookup_tail {a b : Nat} (h : b ≠ a) (v : Word) (m : Memory) :
    Memory.lookup ((a, v) :: m) b = Memory.lookup m b := if_neg h

theorem risesWithin_cons {lo hi a : Nat} {v : Word} {m : Memory} :
    Memory.risesWithin lo hi ((a, v) :: m) = true ↔ lo ≤ a ∧ a < hi ∧ Memory.risesWithin (a + 1) hi m = true := by
  simp only [Memory.risesWithin, Bool.and_eq_true, decide_eq_true_eq, and_assoc]

theorem le_of_lookup {lo hi a : Nat} {v : Word} {m : Memory} (hm : Memory.risesWithin lo hi m = true)
    (h : Memory.lookup m a = some v) : lo ≤ a := by
  by_contra hlt
  rw [lookup_below hm (Nat.lt_of_not_le hlt)] at h
  cases h

/-- The first index of a canonical memory is the least one it holds. -/
theorem head_le_of_lookup {lo hi a b : Nat} {v w : Word} {m : Memory}
    (hm : Memory.risesWithin lo hi ((a, v) :: m) = true) (h : Memory.lookup ((a, v) :: m) b = some w) : a ≤ b := by
  obtain ⟨-, hhi, htail⟩ := risesWithin_cons.mp hm
  exact le_of_lookup (risesWithin_cons.mpr ⟨le_rfl, hhi, htail⟩) h

/-- Canonical memories with equal contents have the same least index, with the same word, and equal contents after it. -/
theorem eq_of_lookup_eq {lo hi : Nat} {m m' : Memory} (hm : Memory.risesWithin lo hi m = true)
    (hm' : Memory.risesWithin lo hi m' = true) (h : ∀ a, Memory.lookup m a = Memory.lookup m' a) : m = m' := by
  induction m generalizing lo m' with
  | nil =>
    cases m' with
    | nil => rfl
    | cons c m' => exact absurd ((h c.1).trans (lookup_head c.1 c.2 m')) (Option.some_ne_none c.2).symm
  | cons c m ih =>
    obtain ⟨a, v⟩ := c
    cases m' with
    | nil => exact absurd ((h a).symm.trans (lookup_head a v m)) (Option.some_ne_none v).symm
    | cons c' m' =>
      obtain ⟨a', v'⟩ := c'
      have hle : a ≤ a' := head_le_of_lookup hm ((h a').trans (lookup_head a' v' m'))
      have hge : a' ≤ a := head_le_of_lookup hm' ((h a).symm.trans (lookup_head a v m))
      obtain rfl := Nat.le_antisymm hle hge
      obtain rfl : v = v' := Option.some.inj ((lookup_head a v m).symm.trans ((h a).trans (lookup_head a v' m')))
      obtain ⟨-, -, htail⟩ := risesWithin_cons.mp hm
      obtain ⟨-, -, htail'⟩ := risesWithin_cons.mp hm'
      refine congrArg _ (ih htail htail' fun b => ?_)
      by_cases hb : b = a
      · rw [hb, lookup_below htail (Nat.lt_succ_self a), lookup_below htail' (Nat.lt_succ_self a)]
      · rw [← lookup_tail hb v m, h b, lookup_tail hb]

theorem word_of_unwritten {s : State} {a : Nat} (h : s.written a = false) : s.word a = Config.powerUpWord a := by
  rw [State.word, Option.not_isSome_iff_eq_none.mp (Bool.eq_false_iff.mp h)]
  rfl

/-! ### The words a span reads -/

theorem span_congr {s s' : State} {p w : Nat} (hcfg : s.cfg = s'.cfg) (hfirst : s.word (p / 32) = s'.word (p / 32))
    (hnext : 32 < p % 32 + w → s.word (p / 32 + 1) = s'.word (p / 32 + 1)) : span s p w = span s' p w := by
  simp only [span, memRead, hcfg, hfirst]
  by_cases hin : p % 32 + w ≤ 32
  · simp only [hin, if_true]
  · simp only [hin, if_false, hnext (Nat.lt_of_not_le hin)]

/-- A glyph's window ends inside the 64 windows of its row (42_extractor.md R189). -/
theorem glyphWindow_le (s : State) (g : Nat) : g % 64 * s.charWidth + s.charWidth ≤ 64 * s.charWidth := by
  rw [← Nat.succ_mul]
  exact Nat.mul_le_mul_right _ (Nat.mod_lt g (by decide))

theorem glyphRow_le {s : State} {g r : Nat} (hg : g < 128) (hr : r < s.charHeight) :
    g / 64 * s.charHeight + r ≤ 2 * s.charHeight - 1 := by
  have hhalf : g / 64 * s.charHeight ≤ 1 * s.charHeight := Nat.mul_le_mul_right _ (by omega)
  omega

/-- Every word of a loaded image is the place of an accepted stream word. -/
theorem written_of_loaded {s : State} (hwritten : s.loadedWritten) (hl : s.loaded = true) {a : Nat}
    (ha : a < s.totalWords) : s.written a = true := by
  obtain ⟨-, hcount⟩ := loaded_iff.mp hl
  rw [← dest_dest ha]
  exact hwritten _ (hcount ▸ dest_lt ha)

/-! ### Every command completes -/

theorem exec_config_completes (s : State) : ∃ t, exec .config s = .next t := by
  by_cases halign : s.arg0.toNat % 64 = 0
  · rw [exec_config_aligned halign]
    split
    · exact ⟨_, rfl⟩
    · split <;> exact ⟨_, rfl⟩
  · exact ⟨_, exec_config_misaligned halign⟩

theorem exec_load_completes {s : State} (h : s.geometryWf) : ∃ t, exec .load s = .next t := by
  cases hconf : s.configured with
  | false => exact ⟨_, exec_load_unconfigured hconf⟩
  | true =>
    obtain hcount | hfull := Nat.lt_or_ge s.loadCount.toNat s.totalWords
    · exact ⟨_, exec_load_next hconf hcount (totalWords_le_pbufWords h)⟩
    · exact ⟨_, (exec_load_configured hconf).trans (if_pos hfull)⟩

theorem exec_extractSpan_completes (s : State) (w : Nat) : ∃ t, exec (.extractSpan w) s = .next t := by
  by_cases hwidth : w = 0 ∨ 32 < w
  · exact ⟨_, exec_extractSpan_width hwidth⟩
  · have h1 : 1 ≤ w := by omega
    have h2 : w ≤ 32 := by omega
    rw [exec_extractSpan_in_range h1 h2]
    split
    next hout => exact ⟨_, rfl⟩
    next hin =>
      obtain ⟨t, ht, -⟩ := span_into_result h1 h2 (Nat.le_of_not_lt hin)
      exact ⟨t, ht⟩

theorem exec_glyphStart_completes (s : State) (g : Nat) : ∃ t, exec (.glyphStart g) s = .next t := by
  cases hconf : s.configured with
  | false => exact ⟨_, exec_glyphStart_unconfigured hconf⟩
  | true =>
    rw [exec_glyphStart_configured hconf]
    split <;> exact ⟨_, rfl⟩

theorem exec_extractRow_completes {s : State} (h : s.geometryWf) (g : Nat) : ∃ t, exec (.extractRow g) s = .next t := by
  cases hconf : s.configured with
  | false => exact ⟨_, exec_extractRow_unconfigured hconf⟩
  | true =>
    by_cases hcount : s.loadCount.toNat = s.totalWords
    · have hl : s.loaded = true := loaded_iff.mpr ⟨hconf, hcount⟩
      by_cases hin : g < 128 ∧ s.arg0.toNat < s.charHeight
      · obtain ⟨v, hv, -⟩ := exec_extractRow_result h hl hin.1 hin.2
        exact ⟨_, hv⟩
      · obtain ⟨e, he⟩ := exec_extractRow_out_of_atlas hl hin
        exact ⟨_, he⟩
    · exact ⟨_, exec_extractRow_not_loaded hconf hcount⟩

/-- No command stops the block in a state with the register invariant (30_encoding.md R114). -/
theorem exec_completes {s : State} (h : s.geometryWf) (i : Instr) : ∃ t, exec i s = .next t := by
  cases i with
  | nop => exact ⟨_, exec_nop s⟩
  | config => exact exec_config_completes s
  | load => exact exec_load_completes h
  | writeRaw addr =>
    obtain hin | hout := Nat.lt_or_ge addr s.cfg.pbufWords
    · exact ⟨_, exec_writeRaw_of_lt hin⟩
    · exact ⟨_, exec_writeRaw_of_ge hout⟩
  | readRaw addr =>
    obtain hin | hout := Nat.lt_or_ge addr s.cfg.pbufWords
    · exact ⟨_, exec_readRaw_of_lt hin⟩
    · exact ⟨_, exec_readRaw_of_ge hout⟩
  | bswap => exact ⟨_, exec_bswap s⟩
  | extractSpan w => exact exec_extractSpan_completes s w
  | glyphStart g => exact exec_glyphStart_completes s g
  | extractRow g => exact exec_extractRow_completes h g
  | clearErr => exact ⟨_, exec_clearErr s⟩

theorem commandStep_completes {s : State} (h : s.geometryWf) (v : Word) : ∃ t, commandStep v s = .next t := by
  cases hadm : admitted v s with
  | false => exact ⟨_, commandStep_rejected hadm⟩
  | true =>
    cases hd : decode v with
    | illegal why => exact ⟨_, commandStep_illegal hadm ⟨why, hd⟩⟩
    | command i =>
      rw [commandStep_command hadm hd]
      exact exec_completes h i

theorem transfer_completes {s : State} (h : s.geometryWf) (x : Transaction) : ∃ t, transfer x s = .next t := by
  cases x with
  | read a => exact ⟨_, rfl⟩
  | write a v =>
    by_cases h0 : a = Reg.arg0.addr
    · exact ⟨_, h0 ▸ busWrite_arg0 _ v⟩
    by_cases h1 : a = Reg.arg1.addr
    · exact ⟨_, h1 ▸ busWrite_arg1 _ v⟩
    by_cases hc : a = Reg.cmd.addr
    · rw [hc, transfer_cmd]
      exact commandStep_completes (s := setReply s .writeAck) h v
    · exact ⟨_, busWrite_ignored _ v h0 h1 hc⟩

theorem step_completes {s : State} (hr : s.resetDone = true) (h : s.geometryWf) : ∃ t, step s = .next t := by
  cases hq : s.inbox with
  | nil => exact ⟨_, step_idle hq⟩
  | cons e rest =>
    cases e with
    | reset => exact ⟨_, step_reset hq⟩
    | transfer x =>
      rw [step_transfer hq hr]
      exact transfer_completes (s := setInbox s rest) h x
    | resetDuring x =>
      obtain ⟨after, -, hperform⟩ := perform_resetDuring (s := setInbox s rest) x hr
      exact ⟨_, (step_event hq).trans hperform⟩

/-- Before the first reset a step idles, resets, or is refused. -/
theorem step_before_reset_no_fault {s : State} (hr : s.resetDone = false) : faults (step s) = false := by
  cases hq : s.inbox with
  | nil => rw [step_idle hq]; rfl
  | cons e rest =>
    cases e with
    | reset => rw [step_reset hq]; rfl
    | transfer x => rw [step_before_reset hr (.inl hq)]; rfl
    | resetDuring x => rw [step_before_reset hr (.inr hq)]; rfl

end Sys2Proof.Machine

open Sys2Proof Sys2Proof.Machine

/-- Settles O14: each offset is its register's, and a derived register is no longer than the one it is derived from. -/
theorem registerMapReads : Obligations.RegisterMapReads := by
  intro s
  refine ⟨busRead_addr s .id, readReg_capacity_toNat s, busRead_addr s .status, busRead_addr s .errCmd,
    busRead_addr s .arg0, busRead_addr s .arg1, busRead_addr s .cmd, busRead_addr s .result, busRead_addr s .imgWidth,
    busRead_addr s .imgHeight, trunc32_toNat_of_le (charWidth_le s), trunc32_toNat_of_le (charHeight_le s), ?bytes,
    ?words, fun hgeo => ?total, busRead_addr s .loadCount, fun a ha => busRead_reserved s ha⟩
  case bytes => exact (trunc32_toNat_of_le (bytesPerLine_le s)).trans (bytesPerLine_eq s)
  case words => exact (trunc32_toNat_of_le (wordsPerLine_le s)).trans (wordsPerLine_eq s)
  case total =>
    have hfit : s.totalWords < 2 ^ 32 := ((totalWords_le_pbufWords hgeo).trans s.cfg.le_max).trans_lt (by decide)
    exact (trunc32_toNat_of_lt hfit).trans (congrArg (· * s.imgHeight.toNat) (wordsPerLine_eq s))

/-- Settles O37: `span` looks at its first word, and at the next one behind the test for a crossing. -/
theorem spanReadsItsWordsAlone : Obligations.SpanReadsItsWordsAlone :=
  fun _ _ _ _ _ _ hcfg hfirst hnext => ⟨span_congr hcfg hfirst hnext, by omega⟩

/-- Settles O41: the scanline's place in its row, the row's place in the image, and the image's in PBUF. -/
theorem glyphWindowsStayInTheirRow : Obligations.GlyphWindowsStayInTheirRow := by
  intro s g r hgeo _ hg hr
  have hheight : 2 * s.charHeight ≤ s.imgHeight.toNat := Nat.mul_div_le _ 2
  refine ⟨rowBit_eq r hg, glyphRow_le hg hr, Nat.sub_le_sub_right hheight 1, glyphWindow_le s g, ?row,
    rowBit_add_charWidth_le hg hr, Nat.mul_le_mul_left 32 (totalWords_le_pbufWords hgeo)⟩
  case row => rw [wordsPerLine_eq]; ring

/-- Settles O43: the places of the accepted words are the whole image, and a scanline's span ends inside the image. -/
theorem loadedImageIsWritten : Obligations.LoadedImageIsWritten := by
  intro s hgeo hwritten hl
  obtain ⟨-, hinv, -, -⟩ := hgeo
  obtain ⟨-, hmin, -, -, -, -⟩ := hinv (loaded_iff.mp hl).1
  refine ⟨fun a ha => written_of_loaded hwritten hl ha, fun g r hg hr => ?_⟩
  have hend := rowBit_add_charWidth_le hg hr
  exact ⟨written_of_loaded hwritten hl (by omega), fun hcross => written_of_loaded hwritten hl (by omega)⟩

/-- Settles O52: after a reset the register invariant lets every event complete; before it no event reaches a fault. -/
theorem soundStepCompletes : Obligations.SoundStepCompletes := by
  rintro s ⟨-, hgeo⟩
  refine ⟨fun hr => step_completes hr (hgeo hr), ?_⟩
  cases hr : s.resetDone with
  | false => exact step_before_reset_no_fault hr
  | true =>
    obtain ⟨t, ht⟩ := step_completes hr (hgeo hr)
    rw [ht]
    rfl

/-- Settles O54: both memories rise from index 0, so they agree entry by entry. -/
theorem canonicalMemoryIsItsContents : Obligations.CanonicalMemoryIsItsContents :=
  fun _ _ _ hm hm' h => eq_of_lookup_eq hm hm' h

/-- Settles O19: the state is the reset of itself, and lists no word. -/
theorem resetStateReads : Obligations.ResetStateReads :=
  ⟨fun _ hid hcap => applyReset_readReg State.reset hid hcap, rfl, fun _ => rfl, rfl, rfl,
    applyReset_loaded State.reset⟩

/-- Settles O34: the store of one word, then the read of a word in the state it leaves. -/
theorem readRawAfterWriteRaw : Obligations.ReadRawAfterWriteRaw :=
  fun s a b ha hb => ⟨_, _, exec_writeRaw_of_lt ha, exec_readRaw_of_lt hb, storeWord_word s a s.arg0 b, rfl⟩

/-- Settles O59: the word of an unlisted index is the free value. -/
theorem unwrittenWordReadsAsFreeValue : Obligations.UnwrittenWordReadsAsFreeValue := by
  intro s addr h hw
  rw [exec_readRaw_of_lt h, word_of_unwritten hw]
end

section
/-! PROOFS. Loading an image and reading it back (41_normalizer.md R168; 42_extractor.md R190): the run of the host's LOAD lines,
word by word, and a glyph scanline of the loaded image as the file's own pixels (20_memory.md R74 to R76). -/

namespace Sys2Proof.Machine

/-! ### A script line of an operand and a command -/

/-- `s` as the command of such a line finds it: the operand in ARG0, the CMD write acknowledged, `q` still to come. -/
def withOperand (s : State) (v : Word) (q : List BusEvent) : State := { s with arg0 := v, inbox := q, reply := .writeAck }

/-- A write of ARG0 and then of a command's word runs the command with that operand. -/
theorem run_operand_command {s t : State} {v : Word} {i : Instr} {q : List BusEvent} (hr : s.resetDone = true)
    (herr : s.err = 0) (hwf : i.WellFormed) (hq : s.inbox = writeEvent .arg0 v :: commandEvent i :: q)
    (h : exec i (withOperand s v q) = .next t) : Sys2Proof.core.run 2 s = .next t := by
  have harg : step s = .next (withOperand s v (commandEvent i :: q)) := (step_write hr hq).trans (busWrite_arg0 _ v)
  have hgate : admitted (encode i) (withOperand s v q) = true := admitted_of_no_error herr _
  have hcmd : step (withOperand s v (commandEvent i :: q)) = .next t :=
    (step_cmd (s := withOperand s v (commandEvent i :: q)) hr rfl).trans
      ((commandStep_command hgate (decode_encode hwf)).trans h)
  rw [run_succ 1 s _ harg, run_succ 0 _ t hcmd]
  rfl

/-! ### States of one geometry -/

section
variable {s t : State}

theorem SameGeometry.charWidth (h : SameGeometry s t) : t.charWidth = s.charWidth := by
  rw [State.charWidth, h.imgWidth, State.charWidth]

theorem SameGeometry.charHeight (h : SameGeometry s t) : t.charHeight = s.charHeight := by
  rw [State.charHeight, h.imgHeight, State.charHeight]

theorem SameGeometry.wordsPerLine (h : SameGeometry s t) : t.wordsPerLine = s.wordsPerLine := by
  rw [wordsPerLine_eq, h.charWidth, wordsPerLine_eq]

theorem SameGeometry.totalWords (h : SameGeometry s t) : t.totalWords = s.totalWords := by
  rw [State.totalWords, h.wordsPerLine, h.imgHeight, State.totalWords]

theorem SameGeometry.dest (h : SameGeometry s t) (k : Nat) : dest t k = dest s k := by
  rw [Machine.dest, h.wordsPerLine, h.imgHeight, Machine.dest]

end

/-! ### Loading word by word -/

/-- `t` is `s` after the first `k` words of `stream`: they stand swapped at their destinations, and no word of PBUF outside
the image has changed (41_normalizer.md R168). -/
structure LoadedWords (s : State) (stream : List Word) (k : Nat) (t : State) : Prop where
  cfg : t.cfg = s.cfg
  resetDone : t.resetDone = true
  err : t.err = 0
  geometry : SameGeometry s t
  count : t.loadCount.toNat = k
  stored : ∀ j < k, t.word (dest s j) = bswap32 (stream.getD j 0)
  kept : ∀ a, s.totalWords ≤ a → t.word a = s.word a

theorem loadEvents_drop {stream : List Word} {k : Nat} (hk : k < stream.length) :
    loadEvents (stream.drop k) = (ScriptLine.loadI (stream.getD k 0)).expand ++ loadEvents (stream.drop (k + 1)) := by
  rw [List.drop_eq_getElem_cons hk, List.getD_eq_getElem _ _ hk, loadEvents, List.flatMap_cons, loadEvents]

section
variable {s : State} {stream : List Word}

/-- The store of word `k` reaches no earlier word's place, because the destinations are distinct (41_normalizer.md R163). -/
theorem dest_ne_of_lt {j k : Nat} (hjk : j < k) (hk : k < s.totalWords) : dest s j ≠ dest s k :=
  fun h => Nat.ne_of_lt hjk ((dest_bijOn s).injOn (hjk.trans hk) hk h)

/-- One LOAD line goes from the first `k` words loaded to the first `k + 1`. -/
theorem LoadedWords.load {t : State} {k : Nat} {q : List BusEvent} (h : LoadedWords s stream k t)
    (hconf : s.configured = true) (hfit : s.totalWords ≤ s.cfg.pbufWords) (hk : k < s.totalWords)
    (hq : t.inbox = (ScriptLine.loadI (stream.getD k 0)).expand ++ q) :
    ∃ u, Sys2Proof.core.run 2 t = .next u ∧ u.inbox = q ∧ LoadedWords s stream (k + 1) u := by
  obtain ⟨hcfg, hr, herr, hgeo, hcount, hstored, hkept⟩ := h
  have htotal := hgeo.totalWords
  have hdest := hgeo.dest
  have hword := storeWord_word (withOperand t (stream.getD k 0) q) (dest s k) (bswap32 (stream.getD k 0))
  refine ⟨advanceLoad k (storeWord (withOperand t (stream.getD k 0) q) (dest s k) (bswap32 (stream.getD k 0))),
    run_operand_command hr herr rfl hq ?exec, rfl, hcfg, hr, herr, ⟨hgeo.configured, hgeo.imgWidth, hgeo.imgHeight⟩,
    ?count, ?stored, ?kept⟩
  case exec =>
    rw [← hdest k, ← hcount]
    refine exec_load_next (hgeo.configured.trans hconf) ?_ ?_
    · exact hcount.trans_lt (hk.trans_eq htotal.symm)
    · exact htotal.trans_le (hfit.trans_eq (congrArg _ hcfg.symm))
  case count => exact trunc32_count_succ_toNat hk hfit
  case stored =>
    intro j hj
    rw [advanceLoad_word, hword]
    obtain hlt | rfl := Nat.lt_succ_iff_lt_or_eq.mp hj
    · rw [if_neg (dest_ne_of_lt hlt hk)]
      exact hstored j hlt
    · rw [if_pos rfl]
  case kept =>
    intro a ha
    rw [advanceLoad_word, hword, if_neg (Nat.ne_of_gt ((dest_lt hk).trans_le ha))]
    exact hkept a ha

/-- The run of the first `k` LOAD lines. -/
theorem run_loadEvents (hr : s.resetDone = true) (hconf : s.configured = true) (hcount : s.loadCount = 0) (herr : s.err = 0)
    (hfit : s.totalWords ≤ s.cfg.pbufWords) (hlen : stream.length = s.totalWords) (rest : List BusEvent) {k : Nat}
    (hk : k ≤ stream.length) :
    ∃ t, Sys2Proof.core.run (2 * k) { s with inbox := loadEvents stream ++ rest } = .next t ∧
      t.inbox = loadEvents (stream.drop k) ++ rest ∧ LoadedWords s stream k t := by
  induction k with
  | zero =>
    exact ⟨_, rfl, rfl, rfl, hr, herr, ⟨rfl, rfl, rfl⟩, congrArg BitVec.toNat hcount, fun j hj => absurd hj j.not_lt_zero,
      fun _ _ => rfl⟩
  | succ k ih =>
    obtain ⟨t, hrun, hq, hloaded⟩ := ih (Nat.le_of_succ_le hk)
    rw [loadEvents_drop hk, List.append_assoc] at hq
    obtain ⟨u, hload, hqu, hnext⟩ := hloaded.load hconf hfit (hlen ▸ hk) hq
    exact ⟨u, (run_add (2 * k) 2 _ t hrun).trans hload, hqu, hnext⟩

/-- The run of all LOAD lines of an image that fits. -/
theorem run_loadEvents_all (hr : s.resetDone = true) (hconf : s.configured = true) (hcount : s.loadCount = 0)
    (herr : s.err = 0) (hfit : s.totalWords ≤ s.cfg.pbufWords) (hlen : stream.length = s.totalWords) (rest : List BusEvent) :
    ∃ t, Sys2Proof.core.run (2 * stream.length) { s with inbox := loadEvents stream ++ rest } = .next t ∧
      t.inbox = rest ∧ LoadedWords s stream s.totalWords t := by
  obtain ⟨t, hrun, hq, hloaded⟩ := run_loadEvents hr hconf hcount herr hfit hlen rest le_rfl
  rw [List.drop_length] at hq
  exact ⟨t, hrun, hq, hlen ▸ hloaded⟩

theorem LoadedWords.loaded {t : State} (h : LoadedWords s stream s.totalWords t) (hconf : s.configured = true) :
    t.loaded = true :=
  loaded_iff.mpr ⟨h.geometry.configured.trans hconf, h.count.trans h.geometry.totalWords.symm⟩

/-- Loading keeps the register invariant. -/
theorem LoadedWords.geometryWf {t : State} {k : Nat} (h : LoadedWords s stream k t) (hs : s.geometryWf)
    (hconf : s.configured = true) (hk : k ≤ s.totalWords) : t.geometryWf := by
  obtain ⟨-, hinv, -, -⟩ := hs
  have hgeo := h.geometry
  have htconf : t.configured = true := hgeo.configured.trans hconf
  refine ⟨fun hfalse => absurd (htconf.symm.trans hfalse) (by decide), fun _ => ?_, ?_, ?_⟩
  · rw [hgeo.imgWidth, hgeo.charWidth, hgeo.wordsPerLine, hgeo.totalWords, h.cfg]
    exact hinv hconf
  · rw [h.count, hgeo.totalWords]
    exact hk
  · rw [h.err]
    exact Nat.zero_le _

/-! ### The file's pixels -/

/-- The destination of a word, by its row and its column. -/
theorem dest_of_row_column {y c : Nat} (hc : c < s.wordsPerLine) :
    dest s (y * s.wordsPerLine + c) = (s.imgHeight.toNat - 1 - y) * s.wordsPerLine + c := by
  have hrow : (y * s.wordsPerLine + c) / s.wordsPerLine = y := by
    rw [Nat.mul_comm, Nat.mul_add_div (Nat.zero_lt_of_lt hc), Nat.div_eq_of_lt hc, Nat.add_zero]
  have hcol : (y * s.wordsPerLine + c) % s.wordsPerLine = c := by
    rw [Nat.mul_add_mod', Nat.mod_eq_of_lt hc]
  rw [dest, hrow, hcol]

theorem row_column_lt_totalWords {y c : Nat} (hc : c < s.wordsPerLine) (hy : y < s.imgHeight.toNat) :
    y * s.wordsPerLine + c < s.totalWords :=
  calc y * s.wordsPerLine + c < (y + 1) * s.wordsPerLine := by rw [Nat.succ_mul]; exact Nat.add_lt_add_left hc _
    _ ≤ s.imgHeight.toNat * s.wordsPerLine := Nat.mul_le_mul_right _ hy
    _ = s.totalWords := Nat.mul_comm _ _

/-- The pixel of the file, bit by bit of the stream word that holds it: bytes of a row from lane 0 up, pixels of a byte from
bit 7 down (20_memory.md R75, R76). -/
theorem filePixel_eq (stream : List Word) (wpl height x y : Nat) :
    filePixel stream (4 * wpl) height x y =
      (stream.getD ((height - 1 - y) * wpl + x / 32) 0).getLsbD (8 * (x / 8 % 4) + (7 - x % 8)) := by
  have hword : ((height - 1 - y) * (4 * wpl) + x / 8) / 4 = (height - 1 - y) * wpl + x / 32 := by
    rw [Nat.mul_left_comm]; omega
  have hlane : ((height - 1 - y) * (4 * wpl) + x / 8) % 4 = x / 8 % 4 := by
    rw [Nat.mul_left_comm]; omega
  rw [filePixel, streamByte, byteLane_getLsbD, hword, hlane, decide_eq_true (by omega), Bool.true_and]

/-- In the loaded image the stream bit of column `x` of logical row `y` is the file's pixel there: the row reorder undoes the
file's order of rows, and the lane swap its order of bytes (20_memory.md R74). -/
theorem LoadedWords.streamBit {t : State} (h : LoadedWords s stream s.totalWords t) {x y : Nat}
    (hx : x < s.wordsPerLine * 32) (hy : y < s.imgHeight.toNat) :
    t.streamBit (y * s.wordsPerLine * 32 + x) = filePixel stream s.bytesPerLine s.imgHeight.toNat x y := by
  have hcol : x / 32 < s.wordsPerLine := Nat.div_lt_of_lt_mul (Nat.mul_comm _ _ ▸ hx)
  have hin := row_column_lt_totalWords hcol hy
  have hbytes : s.bytesPerLine = 4 * s.wordsPerLine := by rw [bytesPerLine_eq, wordsPerLine_eq]; ring
  have hindex : (y * s.wordsPerLine * 32 + x) / 32 = y * s.wordsPerLine + x / 32 := by omega
  have hbit : 31 - (y * s.wordsPerLine * 32 + x) % 32 = 8 * (3 - x / 8 % 4) + (7 - x % 8) := by omega
  have hword : t.word (y * s.wordsPerLine + x / 32) =
      bswap32 (stream.getD ((s.imgHeight.toNat - 1 - y) * s.wordsPerLine + x / 32) 0) := by
    have hstored := h.stored _ (dest_lt hin)
    rwa [dest_dest hin, dest_of_row_column hcol] at hstored
  rw [State.streamBit, hindex, hbit, hword, bswap32_getLsbD_lane _ (by omega) (by omega), hbytes, filePixel_eq]
  congr 2
  omega

/-- EXTRACT_ROW on the loaded image gives the file's pixels of its scanline, leftmost first (42_extractor.md R190). -/
theorem LoadedWords.extractRow {t : State} {g r : Nat} (h : LoadedWords s stream s.totalWords t) (hs : s.geometryWf)
    (hconf : s.configured = true) (hg : g < 128) (hr : r < s.charHeight) (q : List BusEvent) :
    ∃ u, exec (.extractRow g) (withOperand t (trunc32 r) q) = .next u ∧ u.err = 0 ∧
      (∀ c, c < s.charWidth → u.result.getLsbD (s.charWidth - 1 - c) =
        filePixel stream s.bytesPerLine s.imgHeight.toNat (g % 64 * s.charWidth + c) (g / 64 * s.charHeight + r)) ∧
      ∀ b, s.charWidth ≤ b → u.result.getLsbD b = false := by
  have harg : (trunc32 r).toNat = r := trunc32_toNat_of_le (hr.le.trans (charHeight_le s))
  have hwidth := h.geometry.charWidth
  have hheight := h.geometry.charHeight
  have hwords := h.geometry.wordsPerLine
  obtain ⟨htconf, htcount⟩ := loaded_iff.mp (h.loaded hconf)
  obtain ⟨-, -, -, -, hextract⟩ :=
    extractRowByState (withOperand t (trunc32 r) q) g (h.geometryWf hs hconf le_rfl)
  obtain ⟨u, hexec, hu, hbits, hzero⟩ := hextract htconf htcount hg (harg.trans_lt (hr.trans_eq hheight.symm))
  refine ⟨u, hexec, ?err, fun c hc => ?pixel, fun b hb => hzero b (hwidth.trans_le hb)⟩
  case err => rw [hu]; exact h.err
  case pixel =>
    have hcol : g % 64 * s.charWidth + c < s.wordsPerLine * 32 := by
      have hwindow := glyphWindow_le s g
      rw [wordsPerLine_eq]
      omega
    have hbit : u.result.getLsbD (t.charWidth - 1 - c) = t.streamBit
        ((g / 64 * t.charHeight + (trunc32 r).toNat) * t.wordsPerLine * 32 + g % 64 * t.charWidth + c) :=
      hbits c (hc.trans_eq hwidth.symm)
    rw [hwidth, hheight, hwords, harg, Nat.add_assoc] at hbit
    rw [hbit, h.streamBit hcol (glyphRow_lt_imgHeight hg hr)]

end

end Sys2Proof.Machine

open Sys2Proof Sys2Proof.Machine

/-- Settles O35: the run of the LOAD lines, whose last state has every stream word at its place. -/
theorem loadCompleteness : Obligations.LoadCompleteness := by
  rintro s stream rest ⟨-, hgeo⟩ hr hconf hcount herr hlen
  have hfit := totalWords_le_pbufWords (hgeo hr)
  obtain ⟨t, hrun, hq, hall⟩ := run_loadEvents_all hr hconf hcount herr hfit hlen rest
  exact ⟨t, hrun, hq, hall.err, hall.loaded hconf, hlen ▸ hall.stored, hall.kept, hall.geometry.imgWidth,
    hall.geometry.imgHeight⟩

/-- Settles O44: the run of the LOAD lines, then of the EXTRACT_ROW line on the image they loaded. -/
theorem extractedRowIsTheFilesPixels : Obligations.ExtractedRowIsTheFilesPixels := by
  rintro s stream g r ⟨-, hgeo⟩ hr hconf hcount herr hlen hg hrow
  have hfit := totalWords_le_pbufWords (hgeo hr)
  obtain ⟨t, hrun, hq, hall⟩ :=
    run_loadEvents_all hr hconf hcount herr hfit hlen (ScriptLine.extractRowI g (trunc32 r)).expand
  have hwf : (Instr.extractRow g).WellFormed := decide_eq_true (by omega)
  obtain ⟨u, hexec, hpixels⟩ := hall.extractRow (hgeo hr) hconf hg hrow []
  exact ⟨u, (run_add _ 2 _ t hrun).trans (run_operand_command hall.resetDone hall.err hwf hq hexec), hpixels⟩
end

section
/-! PROOFS. The signal level (20_memory.md R89 to R93; 70_reset_and_hazards.md R231, R232): a run of edges as the run of its
events, the edges of a held transaction, and the edge at which the reset pin is low. -/

namespace Sys2Proof.Machine

/-! ### Runs of edges -/

theorem signals_run_cons {extra : Nat} {p : Pins} {ins : List (Nat × Pins)} {c c' : Signals} :
    Signals.run ((extra, p) :: ins) c = .next c' ↔
      ∃ d, Signals.edge extra p c = .next d ∧ Signals.run ins d = .next c' := by
  simp only [Signals.run]
  cases Signals.edge extra p c <;> simp

theorem signals_run_append {ins ins' : List (Nat × Pins)} {c d : Signals} (h : Signals.run ins c = .next d) :
    Signals.run (ins ++ ins') c = Signals.run ins' d := by
  induction ins generalizing c with
  | nil => cases h; rfl
  | cons i ins ih =>
    obtain ⟨u, hedge, hrun⟩ := signals_run_cons.mp h
    rw [List.cons_append, Signals.run, hedge]
    exact ih hrun

theorem signals_events_cons {extra : Nat} {p : Pins} {ins : List (Nat × Pins)} {c d : Signals}
    (h : Signals.edge extra p c = .next d) :
    Signals.events ((extra, p) :: ins) c = (Signals.event c p).toList ++ Signals.events ins d := by
  rw [Signals.events, h]

/-- The step that takes an event does to the block what the event does, whatever stands behind it in the queue. -/
theorem step_queued {s t : State} {e : BusEvent} (h : perform e s = .next t) (q : List BusEvent) :
    step { s with inbox := e :: q } = .next { t with inbox := q } := by
  have hq : perform e (setInbox s q) = .next (setInbox t q) := by rw [perform_setInbox, h]; rfl
  exact (step_event rfl).trans hq

/-- The run of the events' steps ends in the block that the run of edges leaves. -/
theorem run_signals_events {ins : List (Nat × Pins)} {c c' : Signals} (rest : List BusEvent)
    (h : Signals.run ins c = .next c') :
    Sys2Proof.core.run (Signals.events ins c).length { c.block with inbox := Signals.events ins c ++ rest } =
      .next { c'.block with inbox := rest } := by
  induction ins generalizing c with
  | nil => cases h; rfl
  | cons i ins ih =>
    obtain ⟨extra, p⟩ := i
    obtain ⟨d, hedge, hrun⟩ := signals_run_cons.mp h
    have hblock := edge_block hedge
    have hrest := ih hrun
    rw [signals_events_cons hedge]
    cases he : Signals.event c p with
    | none =>
      rw [he] at hblock
      rw [hblock] at hrest
      exact hrest
    | some e =>
      rw [he] at hblock
      exact (run_succ _ _ _ (step_queued hblock _)).trans hrest

/-! ### A held transaction -/

theorem complete_of_perform {e : BusEvent} {c : Signals} {b : State} (h : perform e c.block = .next b) (ph : Phase) :
    Signals.complete e ph c = .next { block := b, phase := ph } := by
  rw [Signals.complete, h]

theorem complete_phase {e : BusEvent} {ph : Phase} {c d : Signals} (h : Signals.complete e ph c = .next d) :
    d.phase = ph := by
  unfold Signals.complete at h
  split at h
  · cases h; rfl
  · cases h
  · cases h

/-- An edge that may start a transaction never starts an ack cycle. -/
theorem start_ack {extra : Nat} {p : Pins} {c d : Signals} (h : Signals.start extra p c = .next d) : d.ack = false := by
  unfold Signals.start at h
  split at h
  · split at h
    · cases h; rfl
    · cases h
  · cases h; rfl

section
variable {p : Pins} {b : State}

theorem edge_starts (extra : Nat) (hrst : p.rstN = true) (hreq : p.req = true) (hr : b.resetDone = true) :
    Signals.edge extra p { block := b, phase := .idle } = .next { block := b, phase := .busy p.latch extra } := by
  simp [Signals.edge, Signals.start, hrst, hreq, hr]

theorem edge_waits (extra w : Nat) (hrst : p.rstN = true) (hreq : p.req = true) :
    Signals.edge extra p { block := b, phase := .busy p.latch (w + 1) } =
      .next { block := b, phase := .busy p.latch w } := by
  simp [Signals.edge, hrst, hreq]

theorem edge_completes {t : State} (extra : Nat) (hrst : p.rstN = true) (hreq : p.req = true)
    (h : perform (.transfer p.latch.transaction) b = .next t) :
    Signals.edge extra p { block := b, phase := .busy p.latch 0 } = .next { block := t, phase := .acking } := by
  simp only [Signals.edge, hrst, hreq, if_true, decide_true, Bool.and_self]
  exact complete_of_perform h .acking

/-- While the host holds the signals, each edge counts one cycle down and leaves the block alone. -/
theorem run_waits (hrst : p.rstN = true) (hreq : p.req = true) (n w : Nat) :
    Signals.run (List.replicate n (0, p)) { block := b, phase := .busy p.latch (w + n) } =
      .next { block := b, phase := .busy p.latch w } := by
  induction n with
  | zero => rfl
  | succ n ih => exact signals_run_cons.mpr ⟨_, edge_waits 0 (w + n) hrst hreq, ih⟩

/-- The edges of a transaction up to the `n`-th cycle of its wait. -/
theorem run_starts_and_waits {extra n : Nat} (hrst : p.rstN = true) (hreq : p.req = true) (hr : b.resetDone = true)
    (hn : n ≤ extra) :
    Signals.run ((extra, p) :: List.replicate n (0, p)) { block := b, phase := .idle } =
      .next { block := b, phase := .busy p.latch (extra - n) } := by
  refine signals_run_cons.mpr ⟨_, edge_starts extra hrst hreq hr, ?_⟩
  have hwait := run_waits (b := b) hrst hreq n (extra - n)
  rwa [Nat.sub_add_cancel hn] at hwait

end

/-- The ack cycle lasts one cycle: the edge that ends it starts a transaction, idles or resets. -/
theorem edge_acking_ack {extra : Nat} {p : Pins} {b : State} {d : Signals}
    (h : Signals.edge extra p { block := b, phase := .acking } = .next d) : d.ack = false := by
  unfold Signals.edge at h
  split at h
  · exact start_ack h
  · rw [Signals.ack, complete_phase h]
    rfl

/-! ### The reset pin -/

theorem edge_reset {extra : Nat} {p : Pins} {c : Signals} (hrst : p.rstN = false) (h : ∀ l n, c.phase ≠ .busy l n) :
    Signals.edge extra p c = .next { block := applyReset c.block, phase := .idle } := by
  obtain ⟨b, ph⟩ := c
  simp only [Signals.edge, hrst, Bool.false_eq_true, if_false]
  cases ph with
  | busy l n => exact absurd rfl (h l n)
  | idle => rfl
  | acking => rfl

theorem edge_cut {extra n : Nat} {p : Pins} {c : Signals} {l : Latch} {b : State} (hrst : p.rstN = false)
    (hphase : c.phase = .busy l n) (h : perform (.resetDuring l.transaction) c.block = .next b) :
    Signals.edge extra p c = .next { block := b, phase := .idle } := by
  simp only [Signals.edge, hrst, Bool.false_eq_true, if_false, hphase]
  exact complete_of_perform h .idle

theorem edge_reset_phase {extra : Nat} {p : Pins} {c d : Signals} (hrst : p.rstN = false)
    (h : Signals.edge extra p c = .next d) : d.phase = .idle := by
  simp only [Signals.edge, hrst, Bool.false_eq_true, if_false] at h
  split at h
  all_goals exact complete_phase h

end Sys2Proof.Machine

open Sys2Proof Sys2Proof.Machine

/-- Settles O56: edge by edge, an edge with an event is the step that takes it from the queue, and one without is no step. -/
theorem signalsRefineTransactions : Obligations.SignalsRefineTransactions :=
  fun _ _ _ rest h => run_signals_events rest h

/-- Settles O57: the edge that starts the transaction, the edges that wait, and the edge that completes it, which a sound block
always does. -/
theorem transactionTiming : Obligations.TransactionTiming := by
  rintro extra p ⟨b, ph⟩ ⟨-, hgeo⟩ hr (rfl : ph = .idle) hrst hreq
  refine ⟨fun n hn => ⟨_, run_starts_and_waits hrst hreq hr hn, rfl, rfl⟩, ?_⟩
  obtain ⟨t, ht⟩ := transfer_completes (hgeo hr) p.latch.transaction
  have hperform : perform (.transfer p.latch.transaction) b = .next t := (if_pos hr).trans ht
  have hwait := run_starts_and_waits hrst hreq hr (le_refl extra)
  rw [Nat.sub_self] at hwait
  refine ⟨{ block := t, phase := .acking }, ?run, rfl, ht, fun e q d h => edge_acking_ack h⟩
  case run =>
    rw [List.replicate_succ', ← List.cons_append, signals_run_append hwait]
    exact signals_run_cons.mpr ⟨_, edge_completes 0 hrst hreq hperform, rfl⟩

/-- Settles O58: by the phase, the low reset pin is the reset alone or the cut of the transaction in progress. -/
theorem resetPinResetsTheBlock : Obligations.ResetPinResetsTheBlock := by
  intro extra p c hrst
  refine ⟨edge_reset hrst, fun l n hphase hr => ?cut, fun d h => ?idle⟩
  case cut =>
    obtain ⟨after, -, hperform⟩ := perform_resetDuring l.transaction hr
    exact ⟨_, hperform, edge_cut hrst hphase hperform, cutByReset_eq after hr⟩
  case idle =>
    have hphase := edge_reset_phase hrst h
    exact ⟨hphase, by rw [Signals.ack, hphase]; rfl⟩
end
